-- ==== Sys2Proof/Word.lean ====
section
/-! DEFINITION. The word types of the H08B and the plainest operations on them. Widths: 00_scope.md rule R5. -/

namespace Sys2Proof

/-- A file register, W, or a constant k: 8 bits (rule R5, DATA_WIDTH). -/
abbrev Byte := BitVec 8

/-- A program word address: PC_WIDTH = 11 bits (rule R25). -/
abbrev PAddr := BitVec 11

/-- One instruction word of the provisional encoding: WORD_WIDTH = 16 bits (rule R95). -/
abbrev IWord := BitVec 16

end Sys2Proof
end

