-- ==== Sys2Proof/Syntax.lean ====
section
/-! DEFINITION. The instruction terms of the H08B (30_encoding.md rules R90 and R92): one constructor per mnemonic, with
the operands of the page's Syntax line. An operand is the number the term spells, so that a term with an operand outside
the range of rule R94 can be written down and be refused; WellFormed.lean holds those ranges. -/

namespace Sys2Proof

/-- The 46 instructions of rule R92, in the order of spec/opcode_table.json. The operand letters are those of rule R10;
`sOp` is the operand s of CALL, RET and RETI (rule R201). -/
inductive Instr where
  | nop
  | cwdt
  | idle
  | slp
  | ret (sOp : Nat)
  | reti (sOp : Nat)
  | addl (k : Nat)
  | andl (k : Nat)
  | iorl (k : Nat)
  | mvl (k : Nat)
  | retl (k : Nat)
  | subl (k : Nat)
  | xorl (k : Nat)
  | clrf (f a : Nat)
  | cpse (f a : Nat)
  | cpsg (f a : Nat)
  | cpsl (f a : Nat)
  | setf (f a : Nat)
  | tfsz (f a : Nat)
  | subc (f d a : Nat)
  | subf (f d a : Nat)
  | swpf (f d a : Nat)
  | xorf (f d a : Nat)
  | addc (f d a : Nat)
  | addf (f d a : Nat)
  | andf (f d a : Nat)
  | comf (f d a : Nat)
  | dcf (f d a : Nat)
  | dcsuz (f d a : Nat)
  | dcsz (f d a : Nat)
  | inf (f d a : Nat)
  | insuz (f d a : Nat)
  | insz (f d a : Nat)
  | iorf (f d a : Nat)
  | mvf (f d a : Nat)
  | rlf (f d a : Nat)
  | rlfc (f d a : Nat)
  | rrf (f d a : Nat)
  | rrfc (f d a : Nat)
  | bcf (f b a : Nat)
  | bsf (f b a : Nat)
  | btgf (f b a : Nat)
  | btss (f b a : Nat)
  | btsz (f b a : Nat)
  | call (n sOp : Nat)
  | jmp (n : Nat)
deriving DecidableEq, Repr

/-- The number of words an instruction occupies (rules R91 and R93): 2 for JMP and CALL, 1 for every other one. -/
def Instr.words : Instr → Nat
  | .jmp _ => 2
  | .call _ _ => 2
  | .nop => 1
  | .cwdt => 1
  | .idle => 1
  | .slp => 1
  | .ret _ => 1
  | .reti _ => 1
  | .addl _ => 1
  | .andl _ => 1
  | .iorl _ => 1
  | .mvl _ => 1
  | .retl _ => 1
  | .subl _ => 1
  | .xorl _ => 1
  | .clrf _ _ => 1
  | .cpse _ _ => 1
  | .cpsg _ _ => 1
  | .cpsl _ _ => 1
  | .setf _ _ => 1
  | .tfsz _ _ => 1
  | .subc _ _ _ => 1
  | .subf _ _ _ => 1
  | .swpf _ _ _ => 1
  | .xorf _ _ _ => 1
  | .addc _ _ _ => 1
  | .addf _ _ _ => 1
  | .andf _ _ _ => 1
  | .comf _ _ _ => 1
  | .dcf _ _ _ => 1
  | .dcsuz _ _ _ => 1
  | .dcsz _ _ _ => 1
  | .inf _ _ _ => 1
  | .insuz _ _ _ => 1
  | .insz _ _ _ => 1
  | .iorf _ _ _ => 1
  | .mvf _ _ _ => 1
  | .rlf _ _ _ => 1
  | .rlfc _ _ _ => 1
  | .rrf _ _ _ => 1
  | .rrfc _ _ _ => 1
  | .bcf _ _ _ => 1
  | .bsf _ _ _ => 1
  | .btgf _ _ _ => 1
  | .btss _ _ _ => 1
  | .btsz _ _ _ => 1

end Sys2Proof
end

