-- ==== Sys2Proof/WellFormed.lean ====
section
/-! DEFINITION. The operand ranges of 30_encoding.md rule R94: which terms are instructions at all, and which of those the
manual admits. -/

namespace Sys2Proof

/-- Ranges of a term with operands f, d, a (rule R94): f in 0..255, d and a one bit each. -/
def inRangeFda (f d a : Nat) : Bool := f < 256 && d < 2 && a < 2

/-- Ranges of a term with operands f, a (rule R94). -/
def inRangeFa (f a : Nat) : Bool := f < 256 && a < 2

/-- Ranges of a term with operands f, b, a (rule R94): b in 0..7. -/
def inRangeFba (f b a : Nat) : Bool := f < 256 && b < 8 && a < 2

/-- Range of the constant k (rule R94): 0..255. -/
def inRangeK (k : Nat) : Bool := k < 256

/-- Range of the operand s (rule R94): one bit. -/
def inRangeS (sOp : Nat) : Bool := sOp < 2

/-- Ranges of the address n and the operand s of CALL (rule R94): n in 0..2047. -/
def inRangeNs (n sOp : Nat) : Bool := n < 2048 && sOp < 2

/-- Range of the address n of JMP (rule R94). -/
def inRangeN (n : Nat) : Bool := n < 2048

/-- Every operand of the term lies in the range its width gives (rule R94). A term outside it is no instruction: the
machine refuses it with OperandRange. -/
def Instr.wellFormed : Instr → Bool
  | .nop => true
  | .cwdt => true
  | .idle => true
  | .slp => true
  | .ret sOp => inRangeS sOp
  | .reti sOp => inRangeS sOp
  | .addl k => inRangeK k
  | .andl k => inRangeK k
  | .iorl k => inRangeK k
  | .mvl k => inRangeK k
  | .retl k => inRangeK k
  | .subl k => inRangeK k
  | .xorl k => inRangeK k
  | .clrf f a => inRangeFa f a
  | .cpse f a => inRangeFa f a
  | .cpsg f a => inRangeFa f a
  | .cpsl f a => inRangeFa f a
  | .setf f a => inRangeFa f a
  | .tfsz f a => inRangeFa f a
  | .subc f d a => inRangeFda f d a
  | .subf f d a => inRangeFda f d a
  | .swpf f d a => inRangeFda f d a
  | .xorf f d a => inRangeFda f d a
  | .addc f d a => inRangeFda f d a
  | .addf f d a => inRangeFda f d a
  | .andf f d a => inRangeFda f d a
  | .comf f d a => inRangeFda f d a
  | .dcf f d a => inRangeFda f d a
  | .dcsuz f d a => inRangeFda f d a
  | .dcsz f d a => inRangeFda f d a
  | .inf f d a => inRangeFda f d a
  | .insuz f d a => inRangeFda f d a
  | .insz f d a => inRangeFda f d a
  | .iorf f d a => inRangeFda f d a
  | .mvf f d a => inRangeFda f d a
  | .rlf f d a => inRangeFda f d a
  | .rlfc f d a => inRangeFda f d a
  | .rrf f d a => inRangeFda f d a
  | .rrfc f d a => inRangeFda f d a
  | .bcf f b a => inRangeFba f b a
  | .bsf f b a => inRangeFba f b a
  | .btgf f b a => inRangeFba f b a
  | .btss f b a => inRangeFba f b a
  | .btsz f b a => inRangeFba f b a
  | .call n sOp => inRangeNs n sOp
  | .jmp n => inRangeN n

/-- The operand a of a term, 0 where it has none (rule R10). -/
def Instr.operandA : Instr → Nat
  | .nop => 0
  | .cwdt => 0
  | .idle => 0
  | .slp => 0
  | .ret _ => 0
  | .reti _ => 0
  | .addl _ => 0
  | .andl _ => 0
  | .iorl _ => 0
  | .mvl _ => 0
  | .retl _ => 0
  | .subl _ => 0
  | .xorl _ => 0
  | .clrf _ a => a
  | .cpse _ a => a
  | .cpsg _ a => a
  | .cpsl _ a => a
  | .setf _ a => a
  | .tfsz _ a => a
  | .subc _ _ a => a
  | .subf _ _ a => a
  | .swpf _ _ a => a
  | .xorf _ _ a => a
  | .addc _ _ a => a
  | .addf _ _ a => a
  | .andf _ _ a => a
  | .comf _ _ a => a
  | .dcf _ _ a => a
  | .dcsuz _ _ a => a
  | .dcsz _ _ a => a
  | .inf _ _ a => a
  | .insuz _ _ a => a
  | .insz _ _ a => a
  | .iorf _ _ a => a
  | .mvf _ _ a => a
  | .rlf _ _ a => a
  | .rlfc _ _ a => a
  | .rrf _ _ a => a
  | .rrfc _ _ a => a
  | .bcf _ _ a => a
  | .bsf _ _ a => a
  | .btgf _ _ a => a
  | .btss _ _ a => a
  | .btsz _ _ a => a
  | .call _ _ => 0
  | .jmp _ => 0

/-- The operand s of a term, 0 where it has none (rule R201). -/
def Instr.operandS : Instr → Nat
  | .nop => 0
  | .cwdt => 0
  | .idle => 0
  | .slp => 0
  | .ret sOp => sOp
  | .reti sOp => sOp
  | .addl _ => 0
  | .andl _ => 0
  | .iorl _ => 0
  | .mvl _ => 0
  | .retl _ => 0
  | .subl _ => 0
  | .xorl _ => 0
  | .clrf _ _ => 0
  | .cpse _ _ => 0
  | .cpsg _ _ => 0
  | .cpsl _ _ => 0
  | .setf _ _ => 0
  | .tfsz _ _ => 0
  | .subc _ _ _ => 0
  | .subf _ _ _ => 0
  | .swpf _ _ _ => 0
  | .xorf _ _ _ => 0
  | .addc _ _ _ => 0
  | .addf _ _ _ => 0
  | .andf _ _ _ => 0
  | .comf _ _ _ => 0
  | .dcf _ _ _ => 0
  | .dcsuz _ _ _ => 0
  | .dcsz _ _ _ => 0
  | .inf _ _ _ => 0
  | .insuz _ _ _ => 0
  | .insz _ _ _ => 0
  | .iorf _ _ _ => 0
  | .mvf _ _ _ => 0
  | .rlf _ _ _ => 0
  | .rlfc _ _ _ => 0
  | .rrf _ _ _ => 0
  | .rrfc _ _ _ => 0
  | .bcf _ _ _ => 0
  | .bsf _ _ _ => 0
  | .btgf _ _ _ => 0
  | .btss _ _ _ => 0
  | .btsz _ _ _ => 0
  | .call _ sOp => sOp
  | .jmp _ => 0

/-- The terms the model gives an effect: well formed, a = 0 (20_memory.md rule R62) and s = 0 (44_control.md rule R201). -/
def Instr.admitted (i : Instr) : Bool := i.wellFormed && i.operandA == 0 && i.operandS == 0

end Sys2Proof
end

