-- ==== Sys2Proof/Decode.lean ====
section
/-! DEFINITION. The provisional binary encoding of 30_encoding.md rules R95 to R107: the decoder, total on every list of
words and rejecting by name, and after it the encoder. The encoding is the spec's own, not the chip's (rule R95). -/

namespace Sys2Proof

/-- Why a list of words spells no instruction (rules R102, R105, R106). The machine turns every one of them into the fault
BadFetch (20_memory.md rule R70). -/
inductive DecodeError where
  /-- No word stands there: the slot is empty (rule R70). -/
  | emptySlot
  /-- The word matches no row of rule R103 (rule R106), a second word of JMP or CALL among them. -/
  | reserved (w : IWord)
  /-- JMP or CALL without a second word (rule R102). -/
  | noSecondWord
  /-- The second word of JMP or CALL does not satisfy w2 & 0xFFF8 = 0xF000 (rules R103 and R105). -/
  | badSecondWord (w2 : IWord)
deriving DecidableEq, Repr

/-- What a decoder answers: the instruction and the words after it, or a named rejection. -/
abbrev Decoded := Except DecodeError (Instr × List IWord)

/-- A one-word instruction, or the rejection of the word it was read from. -/
def oneWord (w : IWord) (rest : List IWord) : Option Instr → Decoded
  | some i => .ok (i, rest)
  | none => .error (.reserved w)

/-- Formats Z and S (rules R100, R101): words whose bits 15:12 are 0000. `v` is the whole word. -/
def decodeZS (v : Nat) : Option Instr :=
  match v with
  | 0x0000 => some .nop
  | 0x0001 => some .cwdt
  | 0x0002 => some .idle
  | 0x0003 => some .slp
  | 0x0010 => some (.ret 0)
  | 0x0011 => some (.ret 1)
  | 0x0012 => some (.reti 0)
  | 0x0013 => some (.reti 1)
  | _ => none

/-- Format K (rule R99): `op8` is bits 15:8, `k` bits 7:0. -/
def decodeK (op8 k : Nat) : Option Instr :=
  match op8 with
  | 0b00010000 => some (.addl k)
  | 0b00010001 => some (.andl k)
  | 0b00010010 => some (.iorl k)
  | 0b00010011 => some (.mvl k)
  | 0b00010100 => some (.retl k)
  | 0b00010101 => some (.subl k)
  | 0b00010110 => some (.xorl k)
  | _ => none

/-- Format FA (rule R97): `op7` is bits 15:9, `a` bit 8, `f` bits 7:0. -/
def decodeFa (op7 f a : Nat) : Option Instr :=
  match op7 with
  | 0b0010000 => some (.clrf f a)
  | 0b0010001 => some (.cpse f a)
  | 0b0010010 => some (.cpsg f a)
  | 0b0010011 => some (.cpsl f a)
  | 0b0010100 => some (.setf f a)
  | 0b0010101 => some (.tfsz f a)
  | _ => none

/-- Format FDA (rule R96): `op6` is bits 15:10, `d` bit 9, `a` bit 8, `f` bits 7:0. -/
def decodeFda (op6 f d a : Nat) : Option Instr :=
  match op6 with
  | 0b001100 => some (.subc f d a)
  | 0b001101 => some (.subf f d a)
  | 0b001110 => some (.swpf f d a)
  | 0b001111 => some (.xorf f d a)
  | 0b010000 => some (.addc f d a)
  | 0b010001 => some (.addf f d a)
  | 0b010010 => some (.andf f d a)
  | 0b010011 => some (.comf f d a)
  | 0b010100 => some (.dcf f d a)
  | 0b010101 => some (.dcsuz f d a)
  | 0b010110 => some (.dcsz f d a)
  | 0b010111 => some (.inf f d a)
  | 0b011000 => some (.insuz f d a)
  | 0b011001 => some (.insz f d a)
  | 0b011010 => some (.iorf f d a)
  | 0b011011 => some (.mvf f d a)
  | 0b011100 => some (.rlf f d a)
  | 0b011101 => some (.rlfc f d a)
  | 0b011110 => some (.rrf f d a)
  | 0b011111 => some (.rrfc f d a)
  | _ => none

/-- Format FBA (rule R98): `op4` is bits 15:12, `b` bits 11:9, `a` bit 8, `f` bits 7:0. -/
def decodeFba (op4 f b a : Nat) : Option Instr :=
  match op4 with
  | 0b1000 => some (.bcf f b a)
  | 0b1001 => some (.bsf f b a)
  | 0b1010 => some (.btgf f b a)
  | 0b1011 => some (.btss f b a)
  | 0b1100 => some (.btsz f b a)
  | _ => none

/-- Format N2 (rule R102): the second word holds n[10:8] in bits 2:0 and 1111 0000 0000 0 above; `low` is n[7:0], read from
the first word. -/
def decodeSecondWord (low : Nat) (mk : Nat → Instr) : List IWord → Decoded
  | [] => .error .noSecondWord
  | w2 :: rest =>
    if w2.toNat / 8 = 0b1111000000000 then .ok (mk (w2.toNat % 8 * 256 + low), rest)
    else .error (.badSecondWord w2)

/-- The decoder (rules R103 to R106): reads one instruction from the front of a list of words. The format is chosen by bits
15:12 of the first word, the operands are taken as rule R104 places them. -/
def decode : List IWord → Decoded
  | [] => .error .emptySlot
  | w :: rest =>
    let v := w.toNat
    let f := v % 256
    let a := v / 256 % 2
    match v / 4096 with
    | 0 => oneWord w rest (decodeZS v)
    | 1 => oneWord w rest (decodeK (v / 256) f)
    | 2 => oneWord w rest (decodeFa (v / 512) f a)
    | 3 | 4 | 5 | 6 | 7 => oneWord w rest (decodeFda (v / 1024) f (v / 512 % 2) a)
    | 8 | 9 | 10 | 11 | 12 => oneWord w rest (decodeFba (v / 4096) f (v / 512 % 8) a)
    | 13 => if v / 512 = 0b1101000 then decodeSecondWord f (fun n => .call n a) rest else .error (.reserved w)
    | 14 => if v / 256 = 0b11100000 then decodeSecondWord f .jmp rest else .error (.reserved w)
    | _ => .error (.reserved w)

/-- Format FDA (rule R96). -/
def encodeFda (op6 f d a : Nat) : List IWord := [BitVec.ofNat 16 (op6 * 1024 + d * 512 + a * 256 + f)]

/-- Format FA (rule R97). -/
def encodeFa (op7 f a : Nat) : List IWord := [BitVec.ofNat 16 (op7 * 512 + a * 256 + f)]

/-- Format FBA (rule R98). -/
def encodeFba (op4 f b a : Nat) : List IWord := [BitVec.ofNat 16 (op4 * 4096 + b * 512 + a * 256 + f)]

/-- Format K (rule R99). -/
def encodeK (op8 k : Nat) : List IWord := [BitVec.ofNat 16 (op8 * 256 + k)]

/-- Format N2 (rule R102): `op7` is bits 15:9 of the first word, `bit8` its bit 8 (s for CALL, 0 for JMP). -/
def encodeN2 (op7 bit8 n : Nat) : List IWord :=
  [BitVec.ofNat 16 (op7 * 512 + bit8 * 256 + n % 256), BitVec.ofNat 16 (0xF000 + n / 256)]

/-- The encoder: the words of a well-formed instruction, by the opcode map of rule R103. -/
def encode : Instr → List IWord
  | .nop => [0x0000]
  | .cwdt => [0x0001]
  | .idle => [0x0002]
  | .slp => [0x0003]
  | .ret sOp => [BitVec.ofNat 16 (0x0010 + sOp)]
  | .reti sOp => [BitVec.ofNat 16 (0x0012 + sOp)]
  | .addl k => encodeK 0b00010000 k
  | .andl k => encodeK 0b00010001 k
  | .iorl k => encodeK 0b00010010 k
  | .mvl k => encodeK 0b00010011 k
  | .retl k => encodeK 0b00010100 k
  | .subl k => encodeK 0b00010101 k
  | .xorl k => encodeK 0b00010110 k
  | .clrf f a => encodeFa 0b0010000 f a
  | .cpse f a => encodeFa 0b0010001 f a
  | .cpsg f a => encodeFa 0b0010010 f a
  | .cpsl f a => encodeFa 0b0010011 f a
  | .setf f a => encodeFa 0b0010100 f a
  | .tfsz f a => encodeFa 0b0010101 f a
  | .subc f d a => encodeFda 0b001100 f d a
  | .subf f d a => encodeFda 0b001101 f d a
  | .swpf f d a => encodeFda 0b001110 f d a
  | .xorf f d a => encodeFda 0b001111 f d a
  | .addc f d a => encodeFda 0b010000 f d a
  | .addf f d a => encodeFda 0b010001 f d a
  | .andf f d a => encodeFda 0b010010 f d a
  | .comf f d a => encodeFda 0b010011 f d a
  | .dcf f d a => encodeFda 0b010100 f d a
  | .dcsuz f d a => encodeFda 0b010101 f d a
  | .dcsz f d a => encodeFda 0b010110 f d a
  | .inf f d a => encodeFda 0b010111 f d a
  | .insuz f d a => encodeFda 0b011000 f d a
  | .insz f d a => encodeFda 0b011001 f d a
  | .iorf f d a => encodeFda 0b011010 f d a
  | .mvf f d a => encodeFda 0b011011 f d a
  | .rlf f d a => encodeFda 0b011100 f d a
  | .rlfc f d a => encodeFda 0b011101 f d a
  | .rrf f d a => encodeFda 0b011110 f d a
  | .rrfc f d a => encodeFda 0b011111 f d a
  | .bcf f b a => encodeFba 0b1000 f b a
  | .bsf f b a => encodeFba 0b1001 f b a
  | .btgf f b a => encodeFba 0b1010 f b a
  | .btss f b a => encodeFba 0b1011 f b a
  | .btsz f b a => encodeFba 0b1100 f b a
  | .call n sOp => encodeN2 0b1101000 sOp n
  | .jmp n => encodeN2 0b1110000 0 n

/-- The two words the bits of an opcode-table word stand for: bit 0 is the least significant bit of the first word, the
second word's bits count on from it, and every bit at or above `nbits` is 0. -/
def tableWords (nbits w : Nat) : List IWord :=
  [BitVec.ofNat 16 (w % 2 ^ nbits), BitVec.ofNat 16 (w % 2 ^ nbits / 65536)]

/-- The instruction the decoder reads from a table word laid out as words; none where it rejects. JMP and CALL need a second
word that satisfies rule R105, so the first word alone (the second word 0) is rejected. -/
def decodeTableWord (nbits w : Nat) : Option Instr :=
  match decode (tableWords nbits w) with
  | .ok (i, _) => some i
  | .error _ => none

end Sys2Proof
end

