-- ==== Sys2Proof/Machine/Memory.lean ====
section
/-! DEFINITION. Memory as a list of (address, value) pairs in one canonical form: addresses strictly rising. An address that is
not listed holds no value (10_state.md rule R24, 20_memory.md rule R70), so no entry can equal what it reads as. The data space
uses 8-bit values (Host.Cell), program memory 16-bit ones. -/

namespace Sys2Proof.Machine

/-- The value at an address, none where nothing was ever written. -/
def Memory.read {n : Nat} : List (Nat × BitVec n) → Nat → Option (BitVec n)
  | [], _ => none
  | (b, v) :: m, a => if a = b then some v else Memory.read m a

/-- The memory with `v` at address `a`, every other address as before; it keeps the canonical form. -/
def Memory.write {n : Nat} : List (Nat × BitVec n) → Nat → BitVec n → List (Nat × BitVec n)
  | [], a, v => [(a, v)]
  | (b, u) :: m, a, v =>
    if a < b then (a, v) :: (b, u) :: m
    else if a = b then (a, v) :: m
    else (b, u) :: Memory.write m a v

/-- Every listed address is above `lo`, and each above the one before it. -/
def Memory.risingFrom {n : Nat} : Option Nat → List (Nat × BitVec n) → Bool
  | _, [] => true
  | none, (b, _) :: m => Memory.risingFrom (some b) m
  | some lo, (b, _) :: m => decide (lo < b) && Memory.risingFrom (some b) m

/-- The canonical form: addresses strictly rising. -/
def Memory.wf {n : Nat} (m : List (Nat × BitVec n)) : Bool := Memory.risingFrom none m

end Sys2Proof.Machine
end

