-- ==== Sys2Proof/Config.lean ====
section
/-! DEFINITION. The parameters of 00_scope.md rule R5: constants the spec fixes, and one record for those it leaves OPEN or
makes the modeller's choice. The record is an argument of the machine (rule R5: the model takes an OPEN parameter as an
argument), carried in State because exec and step have no other argument; no step changes it. -/

namespace Sys2Proof

/-- ADDR_WREG (rules R5 and R21): the data address of W. -/
def addrWreg : Nat := 0x2C

/-- PROG_SIZE (rule R5): 2048 word addresses, 000H to 7FFH. -/
def progSize : Nat := 2048

/-- One range of data addresses, both ends included. -/
structure AddrRange where
  lo : Nat
  hi : Nat
deriving DecidableEq, Repr

/-- The bit positions of the flags and of the pointer field in their registers, OPEN parameters of rule R5: `none` where no
position is bound. A register has 8 bits. No rule reads them (93_implementation_defined.md, U24), because every access to these
registers is refused (10_state.md rule R49). -/
structure FlagLayout where
  /-- C in Status (rule R29). -/
  c : Option (Fin 8)
  /-- Z in Status (rule R29). -/
  z : Option (Fin 8)
  /-- GIE in the register that holds it (rule R32). -/
  gie : Option (Fin 8)
  /-- TO in Pstatus (rule R33). -/
  toFlag : Option (Fin 8)
  /-- IDLEB in Pstatus (rule R33). -/
  idleb : Option (Fin 8)
  /-- PD in Pstatus (rule R33). -/
  pd : Option (Fin 8)
  /-- SKERR in Pstatus (rule R33). -/
  skerr : Option (Fin 8)
  /-- STKUN in STKPTR (rule R39). -/
  stkun : Option (Fin 8)
  /-- The pointer field of STKPTR (rule R38): its lowest and its highest bit. -/
  pointer : Option (Fin 8 × Fin 8)
deriving DecidableEq, Repr

/-- No two flags of Status share a bit, nor two of Pstatus, and the pointer field is a field that leaves the bit of STKUN free. -/
def FlagLayout.wellFormed (l : FlagLayout) : Bool :=
  decide ([l.c, l.z].filterMap id).Nodup
    && decide ([l.toFlag, l.idleb, l.pd, l.skerr].filterMap id).Nodup
    && l.pointer.all (fun p => decide (p.1 ≤ p.2) && l.stkun.all (fun b => decide (b < p.1) || decide (p.2 < b)))

/-- No position bound. -/
def FlagLayout.unbound : FlagLayout := ⟨none, none, none, none, none, none, none, none, none⟩

/-- The OPEN parameters of rule R5 and those a decision makes selectable. An address `none` is a parameter that no address
is bound to (95_test_vectors.md, vector V-PC-8). -/
structure Config where
  /-- ADDR_PCLATL (rules R5 and R43). -/
  addrPclatl : Option Nat
  /-- ADDR_STATUS (rules R5 and R29). -/
  addrStatus : Option Nat
  /-- ADDR_PSTATUS (rules R5 and R33). -/
  addrPstatus : Option Nat
  /-- ADDR_STKPTR (rules R5 and R38). -/
  addrStkptr : Option Nat
  /-- ADDR_GIE, the address of the register that holds GIE (rules R5 and R32). -/
  addrGie : Option Nat
  /-- The bit positions of C, Z, GIE, TO, IDLEB, PD, SKERR, STKUN and of the pointer field of STKPTR (rule R5). -/
  layout : FlagLayout
  /-- RAM_SET (rules R5 and R23): the data addresses that are plain storage. -/
  ramSet : List AddrRange
  /-- STACK_DEPTH (rules R5 and R40). -/
  stackDepth : Nat
  /-- RESET_VECTOR (rules R5 and R281). -/
  resetVector : PAddr
  /-- INT_VECTOR (rules R5 and R252). -/
  intVector : PAddr
  /-- INTERRUPTS_MODELLED (rules R5, R251 and R259). -/
  interruptsModelled : Bool
  /-- WAKE_MODELLED (rules R5 and R265). -/
  wakeModelled : Bool
  /-- WDT_WIDTH (rules R5 and R46). -/
  wdtWidth : Nat
  /-- WDT_ENABLED (rules R5 and R262). -/
  wdtEnabled : Bool
  /-- CMP_SIGNED (rules R5 and R182). -/
  cmpSigned : Bool
deriving DecidableEq, Repr

/-- Is f the address of Status, Pstatus, STKPTR or the register of GIE (10_state.md rule R49)? -/
def Config.isFlagReg (g : Config) (f : Nat) : Bool :=
  g.addrStatus == some f || g.addrPstatus == some f || g.addrStkptr == some f || g.addrGie == some f

/-- Is f in RAM_SET (10_state.md rule R23)? -/
def Config.inRam (g : Config) (f : Nat) : Bool :=
  g.ramSet.any fun r => decide (r.lo ≤ f) && decide (f ≤ r.hi)

/-- The special addresses that are bound, WREG first (10_state.md rule R22). -/
def Config.specials (g : Config) : List Nat :=
  addrWreg :: [g.addrPclatl, g.addrStatus, g.addrPstatus, g.addrStkptr, g.addrGie].filterMap id

/-- The conditions rules R5, R22 and R63 put on a configuration: the stack has a slot, every bound address is a data
address, RAM_SET lies in 000H to 0FFH and holds no special address, PCLATL is neither W nor a flag register, and the bit
positions are those of separate bits. -/
def Config.wellFormed (g : Config) : Bool :=
  decide (1 ≤ g.stackDepth)
    && g.specials.all (fun x => decide (x < 256) && !g.inRam x)
    && g.ramSet.all (fun r => decide (r.hi < 256))
    && g.addrPclatl != some addrWreg
    && g.addrPclatl.all (fun x => !g.isFlagReg x)
    && !g.isFlagReg addrWreg
    && g.layout.wellFormed

/-- The configuration State.reset carries: the values the spec's decisions fix, and for the OPEN parameters those of the
programs and vectors of 95_test_vectors.md. DESIGN CHOICE (log entry 1): every statement of the model quantifies over the
configuration, none rests on this one. -/
def Config.standard : Config where
  addrPclatl := some 0x0A
  addrStatus := none
  addrPstatus := none
  addrStkptr := none
  addrGie := none
  layout := FlagLayout.unbound
  ramSet := [⟨0x70, 0xFF⟩]
  stackDepth := 4
  resetVector := 0x000
  intVector := 0x010
  interruptsModelled := true
  wakeModelled := true
  wdtWidth := 8
  wdtEnabled := false
  cmpSigned := false

end Sys2Proof
end

