-- ==== Sys2Proof/Machine/State.lean ====
section
/-! DEFINITION. The architectural state of the H08B (10_state.md rules R20 to R51) as plain data, the reasons a step can stop
(60_exceptions.md rules R240 and R241), and the state after reset (rules R50 and R281). -/

namespace Sys2Proof.Machine

/-- The faults of rule R240, the spec's closed list. Each ends the run. Every one is safe: the model stops where the chip goes on in
a way the manual does not give. -/
inductive FaultReason where
  /-- A RAM register that nothing has written was read (rules R24 and R63): raised by a data-space read. Safe. -/
  | uninitialisedRead (addr : Nat)
  /-- The address after the instruction, or a skip target, would exceed 7FFH (rule R28). Safe. -/
  | pcOutOfRange (pc : PAddr)
  /-- The slot to execute or to skip is empty or a second word (rules R70 and R180). Safe. -/
  | badFetch (addr : PAddr)
  /-- A push on a full stack (rule R41), by CALL or by interrupt entry. Safe. -/
  | stackOverflow (pc : PAddr)
  /-- A return on an empty stack (rules R42 and R243), by RET, RETI and RETL. Safe: the chip resets there, and what that leaves is
  not in the source. -/
  | stackUnderflowReset (pc : PAddr)
deriving DecidableEq, Repr

/-- The refusals of rule R241, the spec's closed list. Each means the model gives the term or the access no meaning; every one is
safe. -/
inductive RefusalReason where
  /-- a = 1 (rule R62): raised by every instruction with an operand a. Safe. -/
  | operandA
  /-- s = 1 (rule R201): raised by CALL, RET and RETI. Safe. -/
  | operandS
  /-- An operand outside its range (rule R94): raised by every instruction with an operand. Safe. -/
  | operandRange
  /-- f names Status, Pstatus, STKPTR or the register of GIE (rule R49). Safe. -/
  | flagRegisterAccess
  /-- f names an address of no known class (rules R63 and R64). Safe. -/
  | unknownDataAddress
  /-- RETI where INTERRUPTS_MODELLED is false (rule R259). Safe. -/
  | interruptsNotModelled
  /-- A step of a configuration with WDT_ENABLED true (rule R262). Safe. -/
  | watchdogEnabled
deriving DecidableEq, Repr

/-- The run state (rule R47). -/
inductive RunState where
  | running
  | idle
  | sleep
deriving DecidableEq, Repr

/-- What the outside world draws at one instruction boundary: an interrupt request (rule R251) and a wake-up event
(rule R265). -/
structure Input where
  irq : Bool
  wake : Bool
deriving DecidableEq, Repr

/-- The whole state (rule R51). The stack's depth `sp` is the length of `stack` (rule R38). -/
structure State where
  /-- The parameters of rule R5, an argument of the machine; no step changes them. -/
  cfg : Config
  /-- W, the accumulator (rule R20). -/
  w : Byte
  /-- The RAM registers (rule R23), by data address; an address not listed holds no value (rule R24). -/
  ram : List Host.Cell
  /-- C of Status (rules R29 and R30). -/
  c : Bool
  /-- Z of Status (rules R29 and R31). -/
  z : Bool
  /-- GIE (rule R32). -/
  gie : Bool
  /-- TO of Pstatus (rule R34). -/
  toFlag : Bool
  /-- IDLEB of Pstatus (rule R35). -/
  idleb : Bool
  /-- PD of Pstatus (rule R36). -/
  pd : Bool
  /-- SKERR of Pstatus (rule R37). -/
  skerr : Bool
  /-- STKUN of STKPTR (rule R39). -/
  stkun : Bool
  /-- The return stack, TOS first (rule R40). -/
  stack : List PAddr
  /-- PC (rule R25). -/
  pc : PAddr
  /-- The watchdog counter (rule R46), below 2 ^ WDT_WIDTH. -/
  wdt : Nat
  /-- The run state (rule R47). -/
  run : RunState
  /-- The fault recorded in the state (rules R51 and R240). -/
  fault : Option FaultReason
  /-- The refused mark, none where it is not set (rules R51 and R241); a mark that is set keeps its reason (log entry 18). -/
  refused : Option RefusalReason
  /-- Program memory (rules R60 and R79): the word at each program address; an address not listed is empty. -/
  prog : List (Nat × IWord)
  /-- The draws still to come, one for each boundary (rules R251 and R265); none left means nothing is requested. -/
  inputs : List Input
deriving DecidableEq, Repr

/-- A step that ends in a fault (rule R240). -/
inductive Fault where
  /-- The fault and the state it leaves, in which it is recorded; raised through `raise` alone. Safe. -/
  | raised (reason : FaultReason) (left : State)
deriving DecidableEq, Repr

/-- A step that ends in a refusal (rule R241). -/
inductive Refusal where
  /-- An instruction of the opcode table that has no meaning yet; raised by exec's own arms only. Safe. -/
  | notModelled (mnemonic : String)
  /-- The refusal and the state it leaves, which carries the refused mark; raised through `refuse` alone. Safe. -/
  | raised (reason : RefusalReason) (left : State)
deriving DecidableEq, Repr

/-- The reset state of a configuration (rules R50 and R281): pc, the stack, STKUN, GIE and the run state as those rules say;
every other register at the value log entry 2 names (DESIGN CHOICE, the spec gives none); RAM and program memory empty. -/
def State.resetWith (g : Config) : State where
  cfg := g
  w := 0
  ram := []
  c := false
  z := false
  gie := false
  toFlag := false
  idleb := false
  pd := false
  skerr := false
  stkun := false
  stack := []
  pc := g.resetVector
  wdt := 0
  run := .running
  fault := none
  refused := none
  prog := []
  inputs := []

/-- The machine right after reset, in the standard configuration. -/
def State.reset : State := State.resetWith Config.standard

end Sys2Proof.Machine
end

