-- ==== Sys2Proof/Machine/Ops.lean ====
section
/-! DEFINITION. The shared operations over the state: sequencing of results, the next address, the return stack, taking the
interrupt and returning, stack underflow, reading a program slot, the skip. Rules: 10_state.md R25 to R28 and R40 to R42,
20_memory.md R70, 43_compare_skip.md R180, 60_exceptions.md R240 to R252. -/

namespace Sys2Proof.Machine

/-- What an operation answers: a value, a fault (rule R240) or a refusal (rule R241). -/
abbrev Res (α : Type) := Host.Outcome α Fault Refusal

/-- Go on with the value, or stop as the first operation stopped. -/
def andThen {α β : Type} (x : Res α) (k : α → Res β) : Res β :=
  match x with
  | .next v => k v
  | .fault r => .fault r
  | .refused r => .refused r

/-- `raise r` at the state s (rule R240): the fault is recorded in s, and nothing else of it changes. -/
def raise {α : Type} (s : State) (r : FaultReason) : Res α := .fault (.raised r { s with fault := some r })

/-- `refuse r` at the state s (rule R241): the refused mark is set in s, and nothing else of it changes. -/
def refuse {α : Type} (s : State) (r : RefusalReason) : Res α := .refused (.raised r { s with refused := some r })

/-- The state with the program counter set. -/
def State.setPc (s : State) (p : PAddr) : State := { s with pc := p }

/-- The state with W set (rule R20). -/
def State.setW (s : State) (v : Byte) : State := { s with w := v }

/-- The state with one RAM register written (rule R23). -/
def State.setRam (s : State) (a : Nat) (v : Byte) : State := { s with ram := Memory.write s.ram a v }

/-- The state with the two arithmetic flags set (rule R29). -/
def State.setCZ (s : State) (c z : Bool) : State := { s with c := c, z := z }

/-- The state with the return stack replaced (rule R40). -/
def State.setStack (s : State) (t : List PAddr) : State := { s with stack := t }

/-- The number of return addresses on the stack (rule R38): the pointer field of STKPTR. -/
def State.sp (s : State) : Nat := s.stack.length

/-- The word at a program address; nothing stands above 7FFH (rule R60). -/
def progWord (s : State) (a : Nat) : Option IWord := if a < progSize then Memory.read s.prog a else none

/-- The words an instruction starting at a program address is read from: as many as stand there one after the other, at most
two (rules R93 and R105). -/
def slotWords (s : State) (a : Nat) : List IWord :=
  match progWord s a with
  | none => []
  | some w =>
    match progWord s (a + 1) with
    | none => [w]
    | some w2 => [w, w2]

/-- The instruction whose first word stands at a program address, or why there is none (rules R70 and R105). -/
def slotAt (s : State) (p : PAddr) : Except DecodeError Instr :=
  match decode (slotWords s p.toNat) with
  | .ok (i, _) => .ok i
  | .error e => .error e

/-- Instruction fetch (rule R70): an empty slot or a second word is BadFetch. -/
def fetch (s : State) (p : PAddr) : Res Instr :=
  match slotAt s p with
  | .ok i => .next i
  | .error _ => raise s (.badFetch p)

/-- The address `len` words after `p`, or PcOutOfRange when it exceeds 7FFH (rule R28). -/
def addrAfter (s : State) (p : PAddr) (len : Nat) : Res PAddr :=
  if p.toNat + len < progSize then .next (p + BitVec.ofNat 11 len) else raise s (.pcOutOfRange s.pc)

/-- `next`, the address of the instruction that follows one of `len` words at pc (rules R9 and R26). -/
def nextAddr (s : State) (len : Nat) : Res PAddr := addrAfter s s.pc len

/-- The target of a skip with its two checks, BadFetch(next) and then PcOutOfRange (rule R180, check_skip). -/
def skipTarget (s : State) (nxt : PAddr) : Res PAddr :=
  andThen (fetch s nxt) fun j => addrAfter s nxt j.words

/-- The address of the next instruction of a skip instruction: the skip target where it skips, `next` where it does not
(rule R180). -/
def skipIf (s : State) (nxt : PAddr) (cond : Bool) : Res PAddr :=
  if cond then skipTarget s nxt else .next nxt

/-- `push(v)` (rule R41): StackOverflow on a full stack, with nothing else changed. -/
def push (s : State) (v : PAddr) : Res State :=
  if s.sp < s.cfg.stackDepth then .next (s.setStack (v :: s.stack)) else raise s (.stackOverflow s.pc)

/-- A return on an empty stack (rules R42 and R243): STKUN and SKERR are set and StackUnderflowReset is raised; pc, W and GIE
stay. -/
def stackUnderflow {α : Type} (s : State) : Res α :=
  raise { s with stkun := true, skerr := true } (.stackUnderflowReset s.pc)

/-- `pop()` and the jump to the popped address (rules R42 and R204), with `also` the rest of the return's effect; on an empty
stack none of it happens (rules R205 and R206). -/
def popReturn (s : State) (also : State → State) : Res State :=
  match s.stack with
  | [] => stackUnderflow s
  | t :: rest => .next (also ((s.setStack rest).setPc t))

/-- Interrupt entry (rule R252): pc is pushed, GIE is cleared and pc becomes INT_VECTOR; nothing else changes. -/
def interruptEntry (s : State) : Res State :=
  andThen (push s s.pc) fun t => .next { t with gie := false, pc := s.cfg.intVector }

/-- Return from interrupt (rule R205): the return address is popped and GIE becomes 1. -/
def interruptReturn (s : State) : Res State := popReturn s fun t => { t with gie := true }

/-- The draw of this boundary (rules R251 and R265): the next one of the state's list, nothing requested when none is left. -/
def currentInput (s : State) : Input := s.inputs.headD ⟨false, false⟩

/-- The state once this boundary's draw is taken. -/
def State.consume (s : State) : State := { s with inputs := s.inputs.tail }

/-- The words of an opcode-table word placed at pc and the address after it, as far as program memory goes. -/
def placeWords (s : State) : List IWord → Nat → State
  | [], _ => s
  | w :: ws, a =>
    if a < progSize then placeWords { s with prog := Memory.write s.prog a w } ws (a + 1) else s

end Sys2Proof.Machine
end

