-- ==== Sys2Proof/Machine/Flags.lean ====
section
/-! DEFINITION. The arithmetic and logic results with the flags they write: 40_byte_arith_logic.md rule R141, 10_state.md rules
R30 and R31, 42_move_rotate.md rules R164 to R168, 45_bit.md rules R231 to R233. -/

namespace Sys2Proof.Machine

/-- A result byte with the flags it writes; `none` for a flag that keeps its value. -/
structure AluResult where
  value : Byte
  c : Option Bool
  z : Option Bool
deriving DecidableEq, Repr

/-- The zero flag of a result (rule R31). -/
def zeroFlag (r : Byte) : Bool := decide (r = 0)

/-- The byte with a carry in, as the exact sum of three numbers: the value is the sum modulo 256, C the carry out of bit 7
(rule R141). -/
def addResult (x y : Byte) (carryIn : Bool) : AluResult :=
  let sum := x.toNat + y.toNat + carryIn.toNat
  let r := BitVec.ofNat 8 sum
  ⟨r, some (decide (256 ≤ sum)), some (zeroFlag r)⟩

/-- minuend + complement of subtrahend + carry-in (rule R141): C = 1 exactly when no borrow happened. -/
def subResult (minuend subtrahend : Byte) (carryIn : Bool) : AluResult := addResult minuend (~~~subtrahend) carryIn

/-- A logic result: Z is written, C keeps its value (rules R30 and R31). -/
def logicResult (r : Byte) : AluResult := ⟨r, none, some (zeroFlag r)⟩

/-- A result that writes no flag. -/
def plainResult (r : Byte) : AluResult := ⟨r, none, none⟩

/-- Rotate left without carry (rule R165). -/
def rotateLeft (f : Byte) : AluResult := logicResult (f.rotateLeft 1)

/-- Rotate right without carry (rule R167). -/
def rotateRight (f : Byte) : AluResult := logicResult (f.rotateRight 1)

/-- Rotate left through carry (rule R166): the old C enters bit 0, the old bit 7 becomes C. -/
def rotateLeftCarry (f : Byte) (c : Bool) : AluResult :=
  let r : Byte := f.extractLsb' 0 7 ++ BitVec.ofBool c
  ⟨r, some (f.getLsbD 7), some (zeroFlag r)⟩

/-- Rotate right through carry (rule R168): the old C enters bit 7, the old bit 0 becomes C. -/
def rotateRightCarry (f : Byte) (c : Bool) : AluResult :=
  let r : Byte := BitVec.ofBool c ++ f.extractLsb' 1 7
  ⟨r, some (f.getLsbD 0), some (zeroFlag r)⟩

/-- The two nibbles exchanged (rule R164). -/
def swapNibbles (f : Byte) : AluResult := plainResult (f.extractLsb' 0 4 ++ f.extractLsb' 4 4)

/-- 1 << b, the byte with bit b alone set (rules R231 to R233). -/
def bitMask (b : Nat) : Byte := 1#8 <<< b

/-- The state with the flags a result writes; the others keep their value (rule R130). -/
def State.writeFlags (s : State) (r : AluResult) : State := s.setCZ (r.c.getD s.c) (r.z.getD s.z)

/-- f > W, unsigned unless CMP_SIGNED (rule R182). -/
def byteGreater (g : Config) (f w : Byte) : Bool := if g.cmpSigned then w.slt f else w.ult f

/-- f < W, unsigned unless CMP_SIGNED (rule R183). -/
def byteLess (g : Config) (f w : Byte) : Bool := if g.cmpSigned then f.slt w else f.ult w

end Sys2Proof.Machine
end

