-- ==== Sys2Proof/Machine/Operands.lean ====
section
/-! DEFINITION. The operand forms: the operand checks (20_memory.md rule R62, 30_encoding.md rule R94, 44_control.md rule
R201), the classes of data addresses (10_state.md rule R22), the read and write primitives (20_memory.md rules R63 and R64) and
the destination d (40_byte_arith_logic.md rule R130). -/

namespace Sys2Proof.Machine

/-- The operand checks in the order of 60_exceptions.md rule R254: a = 1, s = 1, then the ranges. -/
def checkOperands (s : State) (a sOp : Nat) (inRange : Bool) : Res Unit :=
  if a = 1 then refuse s .operandA
  else if sOp = 1 then refuse s .operandS
  else if inRange then .next ()
  else refuse s .operandRange

/-- The operand checks and then the address of the next instruction of a one-word instruction: what every instruction that
uses `next` does first (rules R28 and R254). -/
def beginOne (s : State) (a sOp : Nat) (inRange : Bool) : Res PAddr :=
  andThen (checkOperands s a sOp inRange) fun _ => nextAddr s 1

/-- The classes of data addresses (rule R22). -/
inductive DataClass where
  | wreg
  | pclatl
  | flagRegister
  | ram
  | unknown
deriving DecidableEq, Repr

/-- The class of data address f, tested in the order of rule R63. -/
def dataClass (g : Config) (f : Nat) : DataClass :=
  if f = addrWreg then .wreg
  else if g.addrPclatl = some f then .pclatl
  else if g.isFlagReg f then .flagRegister
  else if g.inRam f then .ram
  else .unknown

/-- What reading PCLATL gives (rule R44): the low byte of `next`. -/
def pclatlRead (nxt : PAddr) : Byte := nxt.setWidth 8

/-- Where writing v to PCLATL goes (rule R45): the upper three bits of `next`, then v. -/
def pclatlTarget (nxt : PAddr) (v : Byte) : PAddr := (nxt.extractLsb' 8 3) ++ v

/-- `MemRead(f, 1)` during the instruction whose `next` is `nxt` (rule R63). -/
def memRead (s : State) (nxt : PAddr) (f : Nat) : Res Byte :=
  match dataClass s.cfg f with
  | .wreg => .next s.w
  | .pclatl => .next (pclatlRead nxt)
  | .flagRegister => refuse s .flagRegisterAccess
  | .ram =>
    match Memory.read s.ram f with
    | some v => .next v
    | none => raise s (.uninitialisedRead f)
  | .unknown => refuse s .unknownDataAddress

/-- `MemWrite(f, 1, v)` during the instruction whose `next` is `nxt` (rule R64), and then pc: the instruction goes on at `p` unless
the write was to PCLATL (rules R26 and R45). -/
def memWrite (s : State) (nxt p : PAddr) (f : Nat) (v : Byte) : Res State :=
  match dataClass s.cfg f with
  | .wreg => .next ((s.setW v).setPc p)
  | .pclatl => .next (s.setPc (pclatlTarget nxt v))
  | .flagRegister => refuse s .flagRegisterAccess
  | .ram => .next ((s.setRam f v).setPc p)
  | .unknown => refuse s .unknownDataAddress

/-- The destination d (rules R8 and R130): W for d = 0, the register f for d = 1; the instruction goes on at `p` unless it wrote
PCLATL. -/
def writeDest (s : State) (nxt p : PAddr) (f d : Nat) (v : Byte) : Res State :=
  if d = 0 then .next ((s.setW v).setPc p) else memWrite s nxt p f v

end Sys2Proof.Machine
end

