-- ==== Sys2Proof/Machine/CompareSkip.lean ====
section
/-! DEFINITION. Compare, test, increment or decrement a file register and skip: 43_compare_skip.md rules R180 to R189. -/

namespace Sys2Proof.Machine

/-- The template of an instruction that tests the register f and skips (rules R181 to R183 and R188): nothing is written but
pc. `cond` is the test, of the register and W. -/
def execTest (cond : Byte → Byte → Bool) (f a : Nat) (inRange : Bool) (s : State) : Res State :=
  andThen (beginOne s a 0 inRange) fun nxt =>
  andThen (memRead s nxt f) fun fv =>
  andThen (skipIf s nxt (cond fv s.w)) fun p => .next (s.setPc p)

/-- CPSE f, a (rule R181): skip if f = W. -/
def execCpse (f a : Nat) (s : State) : Res State := execTest (fun fv wv => decide (fv = wv)) f a (inRangeFa f a) s

/-- CPSG f, a (rule R182): skip if f > W. -/
def execCpsg (f a : Nat) (s : State) : Res State := execTest (byteGreater s.cfg) f a (inRangeFa f a) s

/-- CPSL f, a (rule R183): skip if f < W. -/
def execCpsl (f a : Nat) (s : State) : Res State := execTest (byteLess s.cfg) f a (inRangeFa f a) s

/-- TFSZ f, a (rule R188): skip if the whole byte f is 0. -/
def execTfsz (f a : Nat) (s : State) : Res State := execTest (fun fv _ => decide (fv = 0)) f a (inRangeFa f a) s

/-- The template of a count-and-skip instruction (rules R184 to R187): the register changed by `delta` modulo 256 is stored in
W or f, skip or no skip, once the checks of the skip have passed. A write to PCLATL decides pc and the skip is not applied
(rule R184). -/
def execCount (delta : Byte) (cond : Byte → Bool) (f d a : Nat) (s : State) : Res State :=
  andThen (beginOne s a 0 (inRangeFda f d a)) fun nxt =>
  andThen (memRead s nxt f) fun fv =>
  let r := fv + delta
  andThen (skipIf s nxt (cond r)) fun p => writeDest s nxt p f d r

/-- DCSUZ f, d, a (rule R184): f − 1, skip if the result is not zero. -/
def execDcsuz (f d a : Nat) (s : State) : Res State := execCount 0xFF (fun r => decide (r ≠ 0)) f d a s

/-- DCSZ f, d, a (rule R185): f − 1, skip if the result is zero. -/
def execDcsz (f d a : Nat) (s : State) : Res State := execCount 0xFF (fun r => decide (r = 0)) f d a s

/-- INSUZ f, d, a (rule R186): f + 1, skip if the result is not zero. -/
def execInsuz (f d a : Nat) (s : State) : Res State := execCount 0x01 (fun r => decide (r ≠ 0)) f d a s

/-- INSZ f, d, a (rule R187): f + 1, skip if the result is zero. -/
def execInsz (f d a : Nat) (s : State) : Res State := execCount 0x01 (fun r => decide (r = 0)) f d a s

end Sys2Proof.Machine
end

