-- ==== Sys2Proof/Machine/Bit.lean ====
section
/-! DEFINITION. Bit-oriented file register operations: 45_bit.md rules R230 to R235. -/

namespace Sys2Proof.Machine

/-- The template of an instruction that changes one bit of f (rule R230): the whole byte is read and written back; no flag is
written. -/
def execBit (op : Byte → Byte) (f b a : Nat) (s : State) : Res State :=
  andThen (beginOne s a 0 (inRangeFba f b a)) fun nxt =>
  andThen (memRead s nxt f) fun fv => memWrite s nxt nxt f (op fv)

/-- BCF f, b, a (rule R231): bit b of f becomes 0. -/
def execBcf (f b a : Nat) (s : State) : Res State := execBit (fun fv => fv &&& ~~~(bitMask b)) f b a s

/-- BSF f, b, a (rule R232): bit b of f becomes 1. -/
def execBsf (f b a : Nat) (s : State) : Res State := execBit (fun fv => fv ||| bitMask b) f b a s

/-- BTGF f, b, a (rule R233): bit b of f is complemented. -/
def execBtgf (f b a : Nat) (s : State) : Res State := execBit (fun fv => fv ^^^ bitMask b) f b a s

/-- BTSS f, b, a (rule R234): skip if bit b of f is 1. -/
def execBtss (f b a : Nat) (s : State) : Res State := execTest (fun fv _ => fv.getLsbD b) f a (inRangeFba f b a) s

/-- BTSZ f, b, a (rule R235): skip if bit b of f is 0. -/
def execBtsz (f b a : Nat) (s : State) : Res State := execTest (fun fv _ => !fv.getLsbD b) f a (inRangeFba f b a) s

end Sys2Proof.Machine
end

