-- ==== Sys2Proof/Machine/ByteArith.lean ====
section
/-! DEFINITION. Byte-oriented arithmetic and logic on a file register: 40_byte_arith_logic.md rules R130 to R141. -/

namespace Sys2Proof.Machine

/-- The template of an f, d, a instruction (rule R130): f is read, the result goes to W or f, the flags are written, and the
next instruction follows unless the write went to PCLATL. `op` is the instruction's function of the register, W and C. -/
def execFda (op : Byte → Byte → Bool → AluResult) (f d a : Nat) (s : State) : Res State :=
  andThen (beginOne s a 0 (inRangeFda f d a)) fun nxt =>
  andThen (memRead s nxt f) fun fv =>
  let r := op fv s.w s.c
  andThen (writeDest s nxt nxt f d r.value) fun t => .next (t.writeFlags r)

/-- ADDC f, d, a (rule R131): W + f + C. -/
def execAddc (f d a : Nat) (s : State) : Res State := execFda (fun fv wv cv => addResult fv wv cv) f d a s

/-- ADDF f, d, a (rule R132): W + f. -/
def execAddf (f d a : Nat) (s : State) : Res State := execFda (fun fv wv _ => addResult fv wv false) f d a s

/-- ANDF f, d, a (rule R133): W AND f. -/
def execAndf (f d a : Nat) (s : State) : Res State := execFda (fun fv wv _ => logicResult (wv &&& fv)) f d a s

/-- COMF f, d, a (rule R134): the complement of f. -/
def execComf (f d a : Nat) (s : State) : Res State := execFda (fun fv _ _ => logicResult (~~~fv)) f d a s

/-- DCF f, d, a (rule R135): f − 1, as f + 255. -/
def execDcf (f d a : Nat) (s : State) : Res State := execFda (fun fv _ _ => addResult fv 0xFF false) f d a s

/-- INF f, d, a (rule R136): f + 1. -/
def execInf (f d a : Nat) (s : State) : Res State := execFda (fun fv _ _ => addResult fv 1 false) f d a s

/-- IORF f, d, a (rule R137): W OR f. -/
def execIorf (f d a : Nat) (s : State) : Res State := execFda (fun fv wv _ => logicResult (wv ||| fv)) f d a s

/-- SUBC f, d, a (rule R138): f − W − NOT C. -/
def execSubc (f d a : Nat) (s : State) : Res State := execFda (fun fv wv cv => subResult fv wv cv) f d a s

/-- SUBF f, d, a (rule R139): f − W. -/
def execSubf (f d a : Nat) (s : State) : Res State := execFda (fun fv wv _ => subResult fv wv true) f d a s

/-- XORF f, d, a (rule R140): W XOR f. -/
def execXorf (f d a : Nat) (s : State) : Res State := execFda (fun fv wv _ => logicResult (wv ^^^ fv)) f d a s

end Sys2Proof.Machine
end

