-- ==== Sys2Proof/Machine/Control.lean ====
section
/-! DEFINITION. Control operations: 44_control.md rules R200 to R211. -/

namespace Sys2Proof.Machine

/-- JMP n (rule R202): pc becomes n. -/
def execJmp (n : Nat) (s : State) : Res State :=
  andThen (checkOperands s 0 0 (inRangeN n)) fun _ => .next (s.setPc (BitVec.ofNat 11 n))

/-- CALL n, s (rule R203): the address after the two words is pushed and pc becomes n. -/
def execCall (n sOp : Nat) (s : State) : Res State :=
  andThen (checkOperands s 0 sOp (inRangeNs n sOp)) fun _ =>
  andThen (nextAddr s 2) fun nxt =>
  andThen (push s nxt) fun t => .next (t.setPc (BitVec.ofNat 11 n))

/-- RET (rule R204): pc becomes the popped return address. -/
def execRet (sOp : Nat) (s : State) : Res State :=
  andThen (checkOperands s 0 sOp (inRangeS sOp)) fun _ => popReturn s fun t => t

/-- RETI (rules R205 and R259): pc becomes the popped return address and GIE becomes 1, where interrupts are modelled. -/
def execReti (sOp : Nat) (s : State) : Res State :=
  andThen (checkOperands s 0 sOp (inRangeS sOp)) fun _ =>
  if s.cfg.interruptsModelled then interruptReturn s else refuse s .interruptsNotModelled

/-- RETL k (rule R206): pc becomes the popped return address and W becomes k. -/
def execRetl (k : Nat) (s : State) : Res State :=
  andThen (checkOperands s 0 0 (inRangeK k)) fun _ => popReturn s fun t => t.setW (BitVec.ofNat 8 k)

/-- NOP (rule R207): only pc moves on. -/
def execNop (s : State) : Res State :=
  andThen (nextAddr s 1) fun nxt => .next (s.setPc nxt)

/-- CWDT (rule R208): the watchdog counter and TO become 0. -/
def execCwdt (s : State) : Res State :=
  andThen (nextAddr s 1) fun nxt => .next { s with wdt := 0, toFlag := false, pc := nxt }

/-- IDLE (rule R209): IDLEB becomes 1 and the CPU halts before the next instruction. -/
def execIdle (s : State) : Res State :=
  andThen (nextAddr s 1) fun nxt => .next { s with idleb := true, pc := nxt, run := .idle }

/-- SLP (rule R210): PD becomes 1 and the CPU sleeps before the next instruction. -/
def execSlp (s : State) : Res State :=
  andThen (nextAddr s 1) fun nxt => .next { s with pd := true, pc := nxt, run := .sleep }

end Sys2Proof.Machine
end

