-- ==== Sys2Proof/Machine/Literal.lean ====
section
/-! DEFINITION. Literal operations on W: 41_literal.md rules R150 to R156. -/

namespace Sys2Proof.Machine

/-- The template of a literal instruction (rule R150): the result of k and W goes to W. -/
def execLiteral (op : Byte → Byte → AluResult) (k : Nat) (s : State) : Res State :=
  andThen (beginOne s 0 0 (inRangeK k)) fun nxt =>
  let r := op (BitVec.ofNat 8 k) s.w
  .next (((s.setPc nxt).setW r.value).writeFlags r)

/-- ADDL k (rule R151): W + k into W. -/
def execAddl (k : Nat) (s : State) : Res State := execLiteral (fun kv wv => addResult wv kv false) k s

/-- ANDL k (rule R152): W AND k into W. -/
def execAndl (k : Nat) (s : State) : Res State := execLiteral (fun kv wv => logicResult (wv &&& kv)) k s

/-- IORL k (rule R153): W OR k into W. -/
def execIorl (k : Nat) (s : State) : Res State := execLiteral (fun kv wv => logicResult (wv ||| kv)) k s

/-- MVL k (rule R154): k into W. -/
def execMvl (k : Nat) (s : State) : Res State := execLiteral (fun kv _ => plainResult kv) k s

/-- SUBL k (rule R155): k − W into W. -/
def execSubl (k : Nat) (s : State) : Res State := execLiteral (fun kv wv => subResult kv wv true) k s

/-- XORL k (rule R156): W XOR k into W. -/
def execXorl (k : Nat) (s : State) : Res State := execLiteral (fun kv wv => logicResult (wv ^^^ kv)) k s

end Sys2Proof.Machine
end

