-- ==== Sys2Proof/Machine/MoveRotate.lean ====
section
/-! DEFINITION. Clear, set, move, swap and rotate a file register: 42_move_rotate.md rules R160 to R168. -/

namespace Sys2Proof.Machine

/-- The template of an f, a instruction that writes f (rule R160): the register gets v, unread. -/
def execFill (v : Byte) (f a : Nat) (s : State) : Res State :=
  andThen (beginOne s a 0 (inRangeFa f a)) fun nxt => memWrite s nxt nxt f v

/-- CLRF f, a (rule R161): 000H into f. -/
def execClrf (f a : Nat) (s : State) : Res State := execFill 0x00 f a s

/-- SETF f, a (rule R162): 0FFH into f. -/
def execSetf (f a : Nat) (s : State) : Res State := execFill 0xFF f a s

/-- MVF f, d, a (rule R163): f into W for d = 0, W into f, unread, for d = 1. -/
def execMvf (f d a : Nat) (s : State) : Res State :=
  andThen (beginOne s a 0 (inRangeFda f d a)) fun nxt =>
  if d = 0 then andThen (memRead s nxt f) fun fv => .next ((s.setPc nxt).setW fv)
  else memWrite s nxt nxt f s.w

/-- SWPF f, d, a (rule R164): the nibbles of f exchanged. -/
def execSwpf (f d a : Nat) (s : State) : Res State := execFda (fun fv _ _ => swapNibbles fv) f d a s

/-- RLF f, d, a (rule R165): f rotated left. -/
def execRlf (f d a : Nat) (s : State) : Res State := execFda (fun fv _ _ => rotateLeft fv) f d a s

/-- RLFC f, d, a (rule R166): f rotated left through C. -/
def execRlfc (f d a : Nat) (s : State) : Res State := execFda (fun fv _ cv => rotateLeftCarry fv cv) f d a s

/-- RRF f, d, a (rule R167): f rotated right. -/
def execRrf (f d a : Nat) (s : State) : Res State := execFda (fun fv _ _ => rotateRight fv) f d a s

/-- RRFC f, d, a (rule R168): f rotated right through C. -/
def execRrfc (f d a : Nat) (s : State) : Res State := execFda (fun fv _ cv => rotateRightCarry fv cv) f d a s

end Sys2Proof.Machine
end

