-- ==== Sys2Proof/Machine/Dispatch.lean ====
section
/-! DEFINITION. The dispatch: each instruction of Syntax.lean to its meaning, in the order of spec/opcode_table.json. -/

namespace Sys2Proof.Machine

def exec (i : Instr) (s : State) : Host.Outcome State Fault Refusal :=
  match i with
  | .nop => Sys2Proof.Machine.execNop s
  | .cwdt => Sys2Proof.Machine.execCwdt s
  | .idle => Sys2Proof.Machine.execIdle s
  | .slp => Sys2Proof.Machine.execSlp s
  | .ret sOp => Sys2Proof.Machine.execRet sOp s
  | .reti sOp => Sys2Proof.Machine.execReti sOp s
  | .addl k => Sys2Proof.Machine.execAddl k s
  | .andl k => Sys2Proof.Machine.execAndl k s
  | .iorl k => Sys2Proof.Machine.execIorl k s
  | .mvl k => Sys2Proof.Machine.execMvl k s
  | .retl k => Sys2Proof.Machine.execRetl k s
  | .subl k => Sys2Proof.Machine.execSubl k s
  | .xorl k => Sys2Proof.Machine.execXorl k s
  | .clrf f a => Sys2Proof.Machine.execClrf f a s
  | .cpse f a => Sys2Proof.Machine.execCpse f a s
  | .cpsg f a => Sys2Proof.Machine.execCpsg f a s
  | .cpsl f a => Sys2Proof.Machine.execCpsl f a s
  | .setf f a => Sys2Proof.Machine.execSetf f a s
  | .tfsz f a => Sys2Proof.Machine.execTfsz f a s
  | .subc f d a => Sys2Proof.Machine.execSubc f d a s
  | .subf f d a => Sys2Proof.Machine.execSubf f d a s
  | .swpf f d a => Sys2Proof.Machine.execSwpf f d a s
  | .xorf f d a => Sys2Proof.Machine.execXorf f d a s
  | .addc f d a => Sys2Proof.Machine.execAddc f d a s
  | .addf f d a => Sys2Proof.Machine.execAddf f d a s
  | .andf f d a => Sys2Proof.Machine.execAndf f d a s
  | .comf f d a => Sys2Proof.Machine.execComf f d a s
  | .dcf f d a => Sys2Proof.Machine.execDcf f d a s
  | .dcsuz f d a => Sys2Proof.Machine.execDcsuz f d a s
  | .dcsz f d a => Sys2Proof.Machine.execDcsz f d a s
  | .inf f d a => Sys2Proof.Machine.execInf f d a s
  | .insuz f d a => Sys2Proof.Machine.execInsuz f d a s
  | .insz f d a => Sys2Proof.Machine.execInsz f d a s
  | .iorf f d a => Sys2Proof.Machine.execIorf f d a s
  | .mvf f d a => Sys2Proof.Machine.execMvf f d a s
  | .rlf f d a => Sys2Proof.Machine.execRlf f d a s
  | .rlfc f d a => Sys2Proof.Machine.execRlfc f d a s
  | .rrf f d a => Sys2Proof.Machine.execRrf f d a s
  | .rrfc f d a => Sys2Proof.Machine.execRrfc f d a s
  | .bcf f b a => Sys2Proof.Machine.execBcf f b a s
  | .bsf f b a => Sys2Proof.Machine.execBsf f b a s
  | .btgf f b a => Sys2Proof.Machine.execBtgf f b a s
  | .btss f b a => Sys2Proof.Machine.execBtss f b a s
  | .btsz f b a => Sys2Proof.Machine.execBtsz f b a s
  | .call n sOp => Sys2Proof.Machine.execCall n sOp s
  | .jmp n => Sys2Proof.Machine.execJmp n s

end Sys2Proof.Machine
end

