-- ==== Sys2Proof/Machine/Boundary.lean ====
section
/-! DEFINITION. What happens at an instruction boundary: the marks that end a run, the interrupt, the wake-up, and fetching and
executing. Rules: 20_memory.md R70, 60_exceptions.md R240, R241, R251, R259, R262, R265 and R267. -/

namespace Sys2Proof.Machine

/-- Why a state is not stepped at all: the refused mark or a recorded fault, neither of which is ever cleared (rules R240 and R241),
or a configuration with the watchdog enabled (rule R262). -/
def stopOf (s : State) : Option (Res State) :=
  match s.refused, s.fault with
  | some r, _ => some (refuse s r)
  | none, some r => some (raise s r)
  | none, none => if s.cfg.wdtEnabled then some (refuse s .watchdogEnabled) else none

/-- Fetch the instruction at pc and execute it (rule R70). -/
def fetchExec (s : State) : Res State := andThen (fetch s s.pc) fun i => exec i s

/-- Is the interrupt taken at this boundary (rules R251 and R259)? -/
def interruptTaken (s : State) : Bool := s.cfg.interruptsModelled && s.gie && (currentInput s).irq

/-- A boundary in run state Running (rule R251): interrupt entry where a request is drawn and GIE is 1, the next instruction
otherwise. The draw is taken either way. -/
def runningStep (s : State) : Res State :=
  if interruptTaken s then interruptEntry s.consume else fetchExec s.consume

/-- A boundary in Idle or Sleep (rules R265 and R267): nothing executes. Where the wake-up is modelled the draw is taken, and a
wake-up sets the run state to Running and changes nothing else; where it is not, the state is final and stays as it is. -/
def haltedStep (s : State) : Res State :=
  if s.cfg.wakeModelled then
    if (currentInput s).wake then .next { s.consume with run := .running } else .next s.consume
  else .next s

/-- One step of a state that no mark ends. -/
def boundaryStep (s : State) : Res State :=
  match s.run with
  | .running => runningStep s
  | .idle => haltedStep s
  | .sleep => haltedStep s

end Sys2Proof.Machine
end

