-- ==== Sys2Proof/Machine/Step.lean ====
section
/-! DEFINITION. The step function, and the placing of one instruction where the step fetches next. -/

namespace Sys2Proof.Machine

/-- One step of the machine: the answer of the mark that ended the run, or what happens at this instruction boundary. -/
def step (s : State) : Host.Outcome State Fault Refusal :=
  match stopOf s with
  | some o => o
  | none => boundaryStep s

/-- The state with the instruction of an opcode-table word stored in program memory at pc, its words one after the other,
every bit at or above `nbits` 0. Nothing else changes. -/
def State.withFetchWord (s : State) (nbits w : Nat) : State := placeWords s (tableWords nbits w) s.pc.toNat

end Sys2Proof.Machine
end

