-- ==== Sys2Proof/Safety.lean ====
section
/-! DEFINITION. The terms claims are made in: a final state (60_exceptions.md rule R267), a launch state (70_reset_and_hazards.md
rule R282), a run that no fault or refusal ends, and the invariant of the state. -/

namespace Sys2Proof.Machine

/-- The end of a run (rule R267): Idle or Sleep, no fault recorded, no refused mark, no wake-up modelled. -/
def State.final (s : State) : Bool :=
  s.run != .running && s.fault.isNone && s.refused.isNone && !s.cfg.wakeModelled

/-- A launch state without premises (rule R282): the reset state of a configuration, with its program and the outside world's
draws. -/
def launch (g : Config) (prog : List (Nat × IWord)) (inputs : List Input) : State :=
  { State.resetWith g with prog := prog, inputs := inputs }

/-- The machine takes n steps from s to t, none of them ending in a fault or a refusal. -/
def RunsTo (n : Nat) (s t : State) : Prop :=
  Host.Core.run Sys2Proof.core n s = .next t

/-- The invariant of the state. Each field is a fact the spec gives of every state a run reaches. -/
structure State.Inv (s : State) : Prop where
  /-- The configuration meets rules R5, R22 and R63. -/
  config : s.cfg.wellFormed = true
  /-- Data memory keeps its canonical form. -/
  ramForm : Memory.wf s.ram = true
  /-- Values are held at RAM addresses only (rule R51). -/
  ramPlace : ∀ x ∈ s.ram, dataClass s.cfg x.1 = .ram
  /-- Program memory keeps its canonical form. -/
  progForm : Memory.wf s.prog = true
  /-- Words stand at 000H to 7FFH only (rule R60). -/
  progPlace : ∀ x ∈ s.prog, x.1 < progSize
  /-- 0 ≤ sp ≤ STACK_DEPTH (rule R38). -/
  stackFits : s.sp ≤ s.cfg.stackDepth
  /-- The watchdog counter has WDT_WIDTH bits (rule R46). -/
  wdtFits : s.wdt < 2 ^ s.cfg.wdtWidth
  /-- Without modelled interrupts GIE stays 0 (rule R259). -/
  gieOff : s.cfg.interruptsModelled = false → s.gie = false
  /-- STKUN is set by a stack underflow only, and that ends the run (rules R39 and R243). -/
  underflowEnds : s.stkun = true → ∃ p, s.fault = some (.stackUnderflowReset p)

end Sys2Proof.Machine
end

