-- ==== Sys2Proof/Certificates/Slice0/Obligations.lean ====
section
/-! DEFINITION. The statements for the provers. Each is a closed proposition about the machine. The helper definitions before
them spell out the spec's own terms, independently of the model's functions. -/

namespace Sys2Proof.Statement

open Sys2Proof.Machine

/-! ### The spec's terms -/

/-- f is a data address of class RAM in configuration g: in RAM_SET, and neither WREG, PCLATL nor a flag register
(rule R22). -/
def PlainRam (g : Config) (f : Nat) : Prop :=
  f ≠ 0x2C ∧ g.addrPclatl ≠ some f ∧ g.isFlagReg f = false ∧ g.inRam f = true

/-- f is the address of PCLATL in configuration g (rules R22 and R63: WREG is tested first). -/
def IsPclatl (g : Config) (f : Nat) : Prop := f ≠ 0x2C ∧ g.addrPclatl = some f

/-- The instruction or step ends in the fault r at s: it is recorded, and nothing else of s changes (rule R240). -/
def faults (s : State) (r : FaultReason) : Res State := .fault (.raised r { s with fault := some r })

/-- The instruction or step is refused as r at s: the mark is set, and nothing else of s changes (rule R241). -/
def refuses (s : State) (r : RefusalReason) : Res State := .refused (.raised r { s with refused := some r })

/-- Reading the register f during the one-word instruction at pc gives fv (rule R63). -/
def Holds (s : State) (f : Nat) (fv : Byte) : Prop :=
  (f = 0x2C ∧ fv = s.w) ∨
  (IsPclatl s.cfg f ∧ fv.toNat = (s.pc.toNat + 1) % 256) ∨
  (PlainRam s.cfg f ∧ Memory.read s.ram f = some fv)

/-- The register f can be written (rule R64). -/
def Writable (g : Config) (f : Nat) : Prop := f = 0x2C ∨ IsPclatl g f ∨ PlainRam g f

/-- The state after the value v is stored in the register f, where the next instruction is the one at p unless f is PCLATL
(rules R45 and R64). -/
def stored (s : State) (f : Nat) (v : Byte) (p : PAddr) : State :=
  if f = 0x2C then { s with w := v, pc := p }
  else if s.cfg.addrPclatl = some f then
    { s with pc := BitVec.ofNat 11 ((s.pc.toNat + 1) / 256 * 256 + v.toNat) }
  else { s with ram := Memory.write s.ram f v, pc := p }

/-- The state after the value v goes to the destination d (rules R8 and R130). -/
def toDest (s : State) (f d : Nat) (v : Byte) (p : PAddr) : State :=
  if d = 0 then { s with w := v, pc := p } else stored s f v p

/-- What an f, d, a instruction does for every f that can be read and both destinations: the value, C and Z are functions of
the register and the state before. -/
def FdaResult (mk : Nat → Nat → Nat → Instr) (value : Byte → State → Byte) (c z : Byte → State → Bool) : Prop :=
  ∀ (s : State) (f d : Nat) (fv : Byte), f < 256 → d < 2 → s.pc ≠ 0x7FF#11 → Holds s f fv →
    exec (mk f d 0) s =
      .next { toDest s f d (value fv s) (s.pc + 1#11) with c := c fv s, z := z fv s }

/-- What a literal instruction does for every k. -/
def LiteralResult (mk : Nat → Instr) (value : Nat → State → Byte) (c z : Nat → State → Bool) : Prop :=
  ∀ (s : State) (k : Nat), k < 256 → s.pc ≠ 0x7FF#11 →
    exec (mk k) s = .next { s with w := value k s, c := c k s, z := z k s, pc := s.pc + 1#11 }

/-- What a bit instruction does: of the register written back, bit b is the complement, one or zero as `newBit` says of the
old bit, and every other bit is the old one. -/
def BitResult (mk : Nat → Nat → Nat → Instr) (newBit : Bool → Bool) : Prop :=
  ∀ (s : State) (f b : Nat) (fv : Byte), f < 256 → b < 8 → s.pc ≠ 0x7FF#11 → Holds s f fv →
    ∃ r : Byte, (∀ j < 8, r.getLsbD j = if j = b then newBit (fv.getLsbD j) else fv.getLsbD j) ∧
      exec (mk f b 0) s = .next (stored s f r (s.pc + 1#11))

/-- A skip instruction that only tests: pc goes to `next`, or past the whole instruction that stands there (rule R180). -/
def TestResult (mk : Nat → Instr) (cond : Byte → State → Bool) : Prop :=
  ∀ (s : State) (f : Nat) (fv : Byte), f < 256 → s.pc ≠ 0x7FF#11 → Holds s f fv →
    (cond fv s = false → exec (mk f) s = .next { s with pc := s.pc + 1#11 }) ∧
    (∀ j, cond fv s = true → slotAt s (s.pc + 1#11) = .ok j → s.pc.toNat + 1 + j.words < 2048 →
      exec (mk f) s = .next { s with pc := BitVec.ofNat 11 (s.pc.toNat + 1 + j.words) })

/-- A count-and-skip instruction: the changed value is stored, skip or no skip (rules R184 to R187). -/
def CountResult (mk : Nat → Nat → Nat → Instr) (value : Byte → Byte) (cond : Byte → Bool) : Prop :=
  ∀ (s : State) (f d : Nat) (fv : Byte), f < 256 → d < 2 → s.pc ≠ 0x7FF#11 → Holds s f fv →
    (cond (value fv) = false → exec (mk f d 0) s = .next (toDest s f d (value fv) (s.pc + 1#11))) ∧
    (∀ j, cond (value fv) = true → slotAt s (s.pc + 1#11) = .ok j → s.pc.toNat + 1 + j.words < 2048 →
      exec (mk f d 0) s = .next (toDest s f d (value fv) (BitVec.ofNat 11 (s.pc.toNat + 1 + j.words))))

/-- A skip that cannot be made stops the instruction before it writes anything (rules R180 and R240). -/
def SkipStops (mk : Nat → Instr) (cond : Byte → State → Bool) : Prop :=
  ∀ (s : State) (f : Nat) (fv : Byte), f < 256 → s.pc ≠ 0x7FF#11 → Holds s f fv → cond fv s = true →
    (∀ e, slotAt s (s.pc + 1#11) = .error e → exec (mk f) s = faults s (.badFetch (s.pc + 1#11))) ∧
    (∀ j, slotAt s (s.pc + 1#11) = .ok j → 2048 ≤ s.pc.toNat + 1 + j.words →
      exec (mk f) s = faults s (.pcOutOfRange s.pc))

/-- The register f an instruction names, if it has an operand f (rule R92). -/
def fileOperand : Instr → Option Nat
  | .addc f _ _ | .addf f _ _ | .andf f _ _ | .comf f _ _ | .dcf f _ _ | .inf f _ _ | .iorf f _ _ | .subc f _ _
  | .subf f _ _ | .xorf f _ _ | .mvf f _ _ | .swpf f _ _ | .rlf f _ _ | .rlfc f _ _ | .rrf f _ _ | .rrfc f _ _
  | .dcsuz f _ _ | .dcsz f _ _ | .insuz f _ _ | .insz f _ _ | .clrf f _ | .setf f _ | .cpse f _ | .cpsg f _ | .cpsl f _
  | .tfsz f _ | .bcf f _ _ | .bsf f _ _ | .btgf f _ _ | .btss f _ _ | .btsz f _ _ => some f
  | .nop | .cwdt | .idle | .slp | .ret _ | .reti _ | .retl _ | .addl _ | .andl _ | .iorl _ | .mvl _ | .subl _ | .xorl _
  | .call _ _ | .jmp _ => none

/-- Does the instruction write the register f it names (rule R66)? -/
def writesFile : Instr → Bool
  | .addc _ d _ | .addf _ d _ | .andf _ d _ | .comf _ d _ | .dcf _ d _ | .inf _ d _ | .iorf _ d _ | .subc _ d _
  | .subf _ d _ | .xorf _ d _ | .mvf _ d _ | .swpf _ d _ | .rlf _ d _ | .rlfc _ d _ | .rrf _ d _ | .rrfc _ d _
  | .dcsuz _ d _ | .dcsz _ d _ | .insuz _ d _ | .insz _ d _ => d == 1
  | .clrf _ _ | .setf _ _ | .bcf _ _ _ | .bsf _ _ _ | .btgf _ _ _ => true
  | .cpse _ _ | .cpsg _ _ | .cpsl _ _ | .tfsz _ _ | .btss _ _ _ | .btsz _ _ _
  | .nop | .cwdt | .idle | .slp | .ret _ | .reti _ | .retl _ | .addl _ | .andl _ | .iorl _ | .mvl _ | .subl _ | .xorl _
  | .call _ _ | .jmp _ => false

/-- Does the instruction read the register f it names (rule R66)? MVF with d = 1, CLRF and SETF do not. -/
def readsFile : Instr → Bool
  | .mvf _ d _ => d == 0
  | .clrf _ _ | .setf _ _ => false
  | i => (fileOperand i).isSome

/-- Does the instruction write W other than as a register f (rules R20 and R66)? -/
def writesW : Instr → Bool
  | .addl _ | .andl _ | .iorl _ | .mvl _ | .subl _ | .xorl _ | .retl _ => true
  | .addc _ d _ | .addf _ d _ | .andf _ d _ | .comf _ d _ | .dcf _ d _ | .inf _ d _ | .iorf _ d _ | .subc _ d _
  | .subf _ d _ | .xorf _ d _ | .mvf _ d _ | .swpf _ d _ | .rlf _ d _ | .rlfc _ d _ | .rrf _ d _ | .rrfc _ d _
  | .dcsuz _ d _ | .dcsz _ d _ | .insuz _ d _ | .insz _ d _ => d == 0
  | .clrf _ _ | .setf _ _ | .bcf _ _ _ | .bsf _ _ _ | .btgf _ _ _
  | .cpse _ _ | .cpsg _ _ | .cpsl _ _ | .tfsz _ _ | .btss _ _ _ | .btsz _ _ _
  | .nop | .cwdt | .idle | .slp | .ret _ | .reti _ | .call _ _ | .jmp _ => false

/-- The ten instructions that write C (rule R30). -/
def writesC : Instr → Bool
  | .addc _ _ _ | .addf _ _ _ | .addl _ | .inf _ _ _ | .subc _ _ _ | .subf _ _ _ | .subl _ | .dcf _ _ _
  | .rlfc _ _ _ | .rrfc _ _ _ => true
  | _ => false

/-- The four instructions that read C (rule R30). -/
def readsC : Instr → Bool
  | .addc _ _ _ | .subc _ _ _ | .rlfc _ _ _ | .rrfc _ _ _ => true
  | _ => false

/-- The nineteen instructions that write Z (rule R31). -/
def writesZ : Instr → Bool
  | .addc _ _ _ | .addf _ _ _ | .addl _ | .andf _ _ _ | .andl _ | .comf _ _ _ | .dcf _ _ _ | .inf _ _ _
  | .iorf _ _ _ | .iorl _ | .rlf _ _ _ | .rlfc _ _ _ | .rrf _ _ _ | .rrfc _ _ _ | .subc _ _ _ | .subf _ _ _ | .subl _
  | .xorf _ _ _ | .xorl _ => true
  | _ => false

/-- RET, RETI and RETL (rule R40). -/
def isReturn : Instr → Bool
  | .ret _ | .reti _ | .retl _ => true
  | _ => false

/-- CALL (rule R40). -/
def isCall : Instr → Bool
  | .call _ _ => true
  | _ => false

/-- RETI (rule R32). -/
def isReti : Instr → Bool
  | .reti _ => true
  | _ => false

/-- The instructions that use `next`: all but JMP, RET, RETI and RETL (rule R28). -/
def usesNext : Instr → Bool
  | .jmp _ | .ret _ | .reti _ | .retl _ => false
  | _ => true

/-- The rows of rule R103: match and mask of the first word, the two-word instructions last. -/
def opcodeRows : List (IWord × IWord) :=
  [(0x0000, 0xFFFF), (0x0001, 0xFFFF), (0x0002, 0xFFFF), (0x0003, 0xFFFF), (0x0010, 0xFFFE), (0x0012, 0xFFFE),
   (0x1000, 0xFF00), (0x1100, 0xFF00), (0x1200, 0xFF00), (0x1300, 0xFF00), (0x1400, 0xFF00), (0x1500, 0xFF00),
   (0x1600, 0xFF00), (0x2000, 0xFE00), (0x2200, 0xFE00), (0x2400, 0xFE00), (0x2600, 0xFE00), (0x2800, 0xFE00),
   (0x2A00, 0xFE00)]
  ++ [(0x3000, 0xFC00), (0x3400, 0xFC00), (0x3800, 0xFC00), (0x3C00, 0xFC00), (0x4000, 0xFC00), (0x4400, 0xFC00),
   (0x4800, 0xFC00), (0x4C00, 0xFC00), (0x5000, 0xFC00), (0x5400, 0xFC00), (0x5800, 0xFC00), (0x5C00, 0xFC00),
   (0x6000, 0xFC00), (0x6400, 0xFC00), (0x6800, 0xFC00), (0x6C00, 0xFC00), (0x7000, 0xFC00), (0x7400, 0xFC00),
   (0x7800, 0xFC00), (0x7C00, 0xFC00)]
  ++ [(0x8000, 0xF000), (0x9000, 0xF000), (0xA000, 0xF000), (0xB000, 0xF000), (0xC000, 0xF000), (0xD000, 0xFE00),
   (0xE000, 0xFF00)]

/-- The row matches the word (rule R103). -/
def rowMatches (r : IWord × IWord) (w : IWord) : Bool := w &&& r.2 == r.1

/-- The reserved first words of rule R106. -/
def reservedWord (n : Nat) : Prop :=
  (0x0004 ≤ n ∧ n ≤ 0x000F) ∨ (0x0014 ≤ n ∧ n ≤ 0x0FFF) ∨ (0x1700 ≤ n ∧ n ≤ 0x1FFF) ∨ (0x2C00 ≤ n ∧ n ≤ 0x2FFF) ∨
  (0xD200 ≤ n ∧ n ≤ 0xDFFF) ∨ (0xE100 ≤ n ∧ n ≤ 0xEFFF) ∨ (0xF000 ≤ n ∧ n ≤ 0xFFFF)

/-- No mark of the state ends the run: it is stepped (rules R240, R241 and R262). -/
def Stepped (s : State) : Prop := s.refused = none ∧ s.fault = none ∧ s.cfg.wdtEnabled = false

/-- The interrupt is taken at this boundary (rule R251): modelled, enabled, and requested by the next draw. -/
def Requested (s : State) : Prop :=
  s.cfg.interruptsModelled = true ∧ s.gie = true ∧ ∃ d ds, s.inputs = d :: ds ∧ d.irq = true

/-- The state with everything no instruction reads set to 0: Z, TO, IDLEB, PD, SKERR and the watchdog counter. -/
def unread (s : State) : State :=
  { s with z := false, toFlag := false, idleb := false, pd := false, skerr := false, wdt := 0 }

/-- The outcome with `unread` applied to the state it carries, the next one or the one a stop leaves. -/
def unreadOutcome : Res State → Res State
  | .next t => .next (unread t)
  | .fault (.raised r t) => .fault (.raised r (unread t))
  | .refused (.raised r t) => .refused (.raised r (unread t))
  | o => o

/-- The same state in a machine with another stack depth. -/
def withDepth (s : State) (k : Nat) : State := { s with cfg := { s.cfg with stackDepth := k } }

/-- The instruction i executed n times, pc moving on as i says. -/
def repeated (i : Instr) : Nat → State → Res State
  | 0, s => .next s
  | n + 1, s => andThen (exec i s) (repeated i n)

/-- The high byte of a 16-bit number. -/
def highByte (x : BitVec 16) : Byte := x.extractLsb' 8 8

/-- The low byte of a 16-bit number. -/
def lowByte (x : BitVec 16) : Byte := x.extractLsb' 0 8

end Sys2Proof.Statement

section

open Sys2Proof Sys2Proof.Machine Sys2Proof.Statement

/-! ### Encoding -/

/-- Decoding what the encoder writes of a well-formed instruction gives it back, and the words after it (rules R90, R96 to
R104). The encoding is the spec's provisional one (log entry 9). -/
def Obligations.DecodeOfEncodeIsTheInstruction : Prop :=
  ∀ (i : Instr) (rest : List IWord), i.wellFormed = true → decode (encode i ++ rest) = .ok (i, rest)

/-- Every word list that decodes is the encoding of the instruction read, which is well formed, followed by the rest: each word
has one meaning. -/
def Obligations.EncodeOfDecodeIsTheWords : Prop :=
  ∀ (ws rest : List IWord) (i : Instr), decode ws = .ok (i, rest) → i.wellFormed = true ∧ encode i ++ rest = ws

/-- A word is the first word of some instruction exactly when it matches a row of the opcode map, and no word matches two rows
(rule R103). The second word 0xF000 completes JMP and CALL. -/
def Obligations.OpcodeRowsAreTheFirstWords : Prop :=
  ∀ w : IWord,
    ((∃ i rest, decode [w, 0xF000] = .ok (i, rest)) ↔ ∃ r ∈ opcodeRows, rowMatches r w = true) ∧
    (opcodeRows.filter (fun r => rowMatches r w)).length ≤ 1

/-- Fetching a reserved word is BadFetch (rule R106), recorded in the state with this boundary's draw taken (the draws are the model's
own field, log entry 5). -/
def Obligations.ReservedWordIsBadFetch : Prop :=
  ∀ (s : State) (w : IWord), Stepped s → s.run = .running → s.gie = false →
    progWord s s.pc.toNat = some w → reservedWord w.toNat →
      step s = faults s.consume (.badFetch s.pc)

/-- JMP and CALL need a second word with w2 & 0xFFF8 = 0xF000; without one the slot is empty (rules R102 and R105). -/
def Obligations.SecondWordIsChecked : Prop :=
  ∀ (w w2 : IWord) (rest : List IWord), (w.toNat / 512 = 0x68 ∨ w.toNat / 256 = 0xE0) →
    ((∃ i, decode (w :: w2 :: rest) = .ok (i, rest) ∧ i.words = 2) ↔ w2 &&& 0xFFF8 = 0xF000) ∧
    (w2 &&& 0xFFF8 ≠ 0xF000 → decode (w :: w2 :: rest) = .error (.badSecondWord w2)) ∧
    decode [w] = .error .noSecondWord

/-- Words written out bit by bit from the spec's encoding decode to the instruction they stand for (rules R96 to R103). -/
def Obligations.WordsWrittenOutDecode : Prop :=
  decode [0b0100001001110000] = .ok (.addc 0x70 1 0, []) ∧
  decode [0b0011001001111111] = .ok (.subc 0x7F 1 0, []) ∧
  decode [0b0001000000001111] = .ok (.addl 0x0F, []) ∧
  decode [0b0010100010000000] = .ok (.setf 0x80 0, []) ∧
  decode [0b1011111010000000] = .ok (.btss 0x80 7 0, []) ∧
  decode [0b1110000000100011, 0b1111000000000001] = .ok (.jmp 0x123, []) ∧
  decode [0b0000000000010011] = .ok (.reti 1, [])

/-! ### The step -/

/-- Where the slot at pc decodes to i and no interrupt is taken, the step is exec of i, at the state with this boundary's draw
taken (rules R70 and R251). The draws are the model's own field (log entry 5). -/
def Obligations.StepExecutesTheDecodedInstruction : Prop :=
  ∀ (s : State) (i : Instr), Stepped s → s.run = .running → ¬ Requested s → slotAt s s.pc = .ok i →
    step s = exec i s.consume

/-- The words of a well-formed instruction at pc are executed: the step is exec of it, at the state with this boundary's draw taken.
The draws are the model's own field (log entry 5), the words those of the spec's provisional encoding (log entry 9). -/
def Obligations.StepExecutesTheEncodedInstruction : Prop :=
  ∀ (s : State) (i : Instr), Stepped s → s.run = .running → s.gie = false → i.wellFormed = true →
    s.pc.toNat + i.words ≤ 2048 →
    (∀ n (w : IWord), (encode i)[n]? = some w → Memory.read s.prog (s.pc.toNat + n) = some w) →
    step s = exec i s.consume

/-- Where the slot at pc is empty or a second word, the step is BadFetch (rule R70), recorded in the state with this boundary's draw
taken (log entry 5). -/
def Obligations.EmptySlotIsBadFetch : Prop :=
  ∀ (s : State) (e : DecodeError), Stepped s → s.run = .running → ¬ Requested s → slotAt s s.pc = .error e →
    step s = faults s.consume (.badFetch s.pc)

/-- Interrupt entry (rule R252, which the spec infers from RETI, decision D17): with GIE = 1 and a request drawn, pc is pushed,
GIE becomes 0, pc becomes INT_VECTOR, and nothing else changes but the draw (log entry 5); on a full stack StackOverflow. -/
def Obligations.InterruptEntryPushesPcAndClearsGie : Prop :=
  ∀ s : State, Stepped s → s.run = .running → Requested s →
    (s.sp < s.cfg.stackDepth →
      step s = .next { s with stack := s.pc :: s.stack, gie := false, pc := s.cfg.intVector, inputs := s.inputs.tail }) ∧
    (s.cfg.stackDepth ≤ s.sp → step s = faults s.consume (.stackOverflow s.pc))

/-- With GIE = 0 a request makes no difference (rule R251). That its draw is taken from the list and dropped is the model's choice
(log entry 5: the list is its own field, and no pending bit is kept). Of a state that a mark ends, MarksEndTheRun says all. -/
def Obligations.NoInterruptWithGieClear : Prop :=
  ∀ (s : State) (x y : Bool) (ds : List Input), Stepped s → s.gie = false → s.run = .running →
    step { s with inputs := ⟨x, y⟩ :: ds } = step { s with inputs := ⟨!x, y⟩ :: ds }

/-- RETI undoes interrupt entry (rules R205, R252 and R255): executed in the state entry leaves, it gives the interrupted state
back, its draw taken. Entry is the spec's own inference from RETI undoing exactly that (decision D17, log entry 22); the draws are the
model's own field (log entry 5). -/
def Obligations.RetiUndoesInterruptEntry : Prop :=
  ∀ s : State, Stepped s → s.run = .running → Requested s → s.sp < s.cfg.stackDepth →
    ∃ t, step s = .next t ∧ t.gie = false ∧ t.pc = s.cfg.intVector ∧ exec (.reti 0) t = .next s.consume

/-- In Idle and Sleep nothing executes; a wake-up that is modelled sets the run state to Running and changes nothing else
(rules R47 and R265). -/
def Obligations.HaltedStepOnlyWakes : Prop :=
  ∀ s : State, Stepped s → s.run ≠ .running →
    (s.cfg.wakeModelled = false → step s = .next s) ∧
    (∀ x ds, s.cfg.wakeModelled = true → s.inputs = ⟨x, true⟩ :: ds →
      step s = .next { s with run := .running, inputs := ds }) ∧
    (∀ x ds, s.cfg.wakeModelled = true → s.inputs = ⟨x, false⟩ :: ds → step s = .next { s with inputs := ds }) ∧
    (s.cfg.wakeModelled = true → s.inputs = [] → step s = .next s)

/-- A final state stays as it is, however many steps are taken (rule R267; that a step of it answers the state itself is the
model's choice, log entry 7). -/
def Obligations.FinalStateStays : Prop :=
  ∀ (n : Nat) (s : State), s.final = true → s.cfg.wdtEnabled = false → Host.Core.run core n s = .next s

/-- A state with the refused mark, one with a recorded fault and one with the watchdog enabled are not executed (rules R240, R241 and
R262). That a step of a marked state answers its mark again is the model's choice (log entries 6 and 18), and so is the order of the
three (log entry 25). -/
def Obligations.MarksEndTheRun : Prop :=
  (∀ (s : State) (r : RefusalReason), s.refused = some r → step s = .refused (.raised r s)) ∧
  (∀ (s : State) (r : FaultReason), s.refused = none → s.fault = some r → step s = .fault (.raised r s)) ∧
  (∀ s : State, s.refused = none → s.fault = none → s.cfg.wdtEnabled = true → step s = refuses s .watchdogEnabled)

/-- A step that ends in a fault leaves a state in which it is recorded, a refused one a state with the refused mark (rules R240 and
R241). Neither is final, neither changes anything else, but STKUN and SKERR for StackUnderflowReset, and neither mark is cleared by a
further step (the form of that step is the model's choice, log entries 6 and 18). The draws apart, the model's own field (log entry
5). -/
def Obligations.StopsAreRecorded : Prop :=
  ∀ s : State,
    (∀ r t, step s = .fault (.raised r t) →
      t.fault = some r ∧ t.final = false ∧ step t = .fault (.raised r t) ∧
      { t with fault := s.fault, stkun := s.stkun, skerr := s.skerr, inputs := s.inputs } = s ∧
      ((∃ p, r = .stackUnderflowReset p) ∨ (t.stkun = s.stkun ∧ t.skerr = s.skerr))) ∧
    (∀ r t, step s = .refused (.raised r t) →
      t.refused = some r ∧ t.final = false ∧ step t = .refused (.raised r t) ∧
      { t with refused := s.refused, inputs := s.inputs } = s)

/-! ### Invariants and whole-machine rules -/

/-- Every step keeps the invariant. -/
def Obligations.StepKeepsTheInvariant : Prop :=
  ∀ s t : State, s.Inv → step s = .next t → t.Inv

/-- The state a faulting or refused step leaves has the invariant too. -/
def Obligations.StopsKeepTheInvariant : Prop :=
  ∀ s : State, s.Inv →
    (∀ r t, step s = .fault (.raised r t) → t.Inv) ∧ (∀ r t, step s = .refused (.raised r t) → t.Inv)

/-- The reset state of every well-formed configuration has the invariant. -/
def Obligations.ResetHasTheInvariant : Prop :=
  ∀ g : Config, g.wellFormed = true → (State.resetWith g).Inv

/-- After reset pc is RESET_VECTOR, the stack is empty, STKUN and GIE are 0, the run state is Running, no RAM register holds a
value and nothing is recorded (rules R50 and R281). -/
def Obligations.ResetState : Prop :=
  ∀ g : Config, (State.resetWith g).cfg = g ∧ (State.resetWith g).pc = g.resetVector ∧ (State.resetWith g).sp = 0 ∧
    (State.resetWith g).stkun = false ∧ (State.resetWith g).gie = false ∧ (State.resetWith g).run = .running ∧
    (State.resetWith g).fault = none ∧ (State.resetWith g).refused = none ∧
    ∀ a, Memory.read (State.resetWith g).ram a = none

/-- No step changes program memory or the configuration (rule R79). -/
def Obligations.StepKeepsProgramAndConfiguration : Prop :=
  ∀ s t : State, step s = .next t → t.prog = s.prog ∧ t.cfg = s.cfg

/-- C is written by exactly the ten instructions of rule R30, and an instruction that is not one of the four that read it does
the same whatever C is. -/
def Obligations.CarryWritersAndReaders : Prop :=
  (∀ (i : Instr) (s t : State), exec i s = .next t → writesC i = false → t.c = s.c) ∧
  (∀ (i : Instr) (s t : State) (b : Bool), readsC i = false → exec i s = .next t →
    exec i { s with c := b } = .next { t with c := if writesC i then t.c else b })

/-- Z is written by the nineteen instructions of rule R31 alone. -/
def Obligations.ZeroWriters : Prop :=
  ∀ (i : Instr) (s t : State), exec i s = .next t → writesZ i = false → t.z = s.z

/-- Of the instructions only RETI writes GIE, and it writes 1 (rule R32). -/
def Obligations.OnlyRetiWritesGie : Prop :=
  ∀ (i : Instr) (s t : State), exec i s = .next t → t.gie = s.gie ∨ (isReti i = true ∧ t.gie = true)

/-- TO and the watchdog counter are written by CWDT alone, IDLEB by IDLE, PD by SLP, and the run state by IDLE and SLP
(rules R34 to R36, R46 and R47). -/
def Obligations.PstatusAndRunStateWriters : Prop :=
  ∀ (i : Instr) (s t : State), exec i s = .next t →
    (i ≠ .cwdt → t.toFlag = s.toFlag ∧ t.wdt = s.wdt) ∧ (i ≠ .idle → t.idleb = s.idleb) ∧
    (i ≠ .slp → t.pd = s.pd) ∧ (i ≠ .idle → i ≠ .slp → t.run = s.run)

/-- STKUN and SKERR change only when a return executes on an empty stack, which is StackUnderflowReset, and then both are 1; every
other fault of an instruction changes nothing but the record of it (rules R37, R39, R240 and R243). -/
def Obligations.StackErrorWriters : Prop :=
  (∀ (i : Instr) (s t : State), exec i s = .next t →
    t.stkun = s.stkun ∧ t.skerr = s.skerr ∧ t.fault = s.fault ∧ t.refused = s.refused) ∧
  (∀ (i : Instr) (s t : State) (r : FaultReason), exec i s = .fault (.raised r t) →
    (isReturn i = true ∧ s.stack = [] ∧ r = .stackUnderflowReset s.pc ∧
      t = { s with stkun := true, skerr := true, fault := some r }) ∨
    ((∀ p, r ≠ .stackUnderflowReset p) ∧ t = { s with fault := some r })) ∧
  (∀ (i : Instr) (s t : State) (r : RefusalReason), exec i s = .refused (.raised r t) → t = { s with refused := some r })

/-- Of the instructions only CALL pushes (interrupt entry pushes too, which is no instruction), and only RET, RETI and RETL pop, into
pc; every other instruction leaves the stack (rule R40). CALL pushes `next`, which is pc + 2 (rule R203): that CALL is two words long
is the spec's decision D4 (log entry 14, DEDUCED). -/
def Obligations.StackWriters : Prop :=
  ∀ (i : Instr) (s t : State), exec i s = .next t →
    (isCall i = true ∧ t.stack = (s.pc + 2#11) :: s.stack) ∨ (isReturn i = true ∧ ∃ p, s.stack = p :: t.stack ∧ t.pc = p) ∨
    (isCall i = false ∧ isReturn i = false ∧ t.stack = s.stack)

/-- Every byte of data memory is unchanged but the one at the register f of an instruction that writes f (rules R64 and R66). -/
def Obligations.RamFrame : Prop :=
  ∀ (i : Instr) (s t : State) (a : Nat), exec i s = .next t → (writesFile i = true → fileOperand i ≠ some a) →
    Memory.read t.ram a = Memory.read s.ram a

/-- W is unchanged by an instruction that neither has W as its destination nor writes the register 02CH (rules R20, R21 and
R66). -/
def Obligations.WregFrame : Prop :=
  ∀ (i : Instr) (s t : State), exec i s = .next t → writesW i = false →
    (writesFile i = true → fileOperand i ≠ some 0x2C) → t.w = s.w

/-- Nothing depends on Z, TO, IDLEB, PD, SKERR or the watchdog counter: two states that agree but for them agree but for them
after any number of steps, stops included (rules R31, R46 and R49). -/
def Obligations.NothingReadsZOrPstatus : Prop :=
  ∀ (n : Nat) (s s' : State), unread s = unread s' →
    unreadOutcome (Host.Core.run core n s) = unreadOutcome (Host.Core.run core n s')

/-- A run that does not stop is the same run with any greater stack depth (decision D15). -/
def Obligations.GreaterStackDepthIsTheSameRun : Prop :=
  ∀ (n k : Nat) (s t : State), s.cfg.stackDepth ≤ k → Host.Core.run core n s = .next t →
    Host.Core.run core n (withDepth s k) = .next (withDepth t k)

/-! ### What each instruction does -/

/-- ADDC, ADDF, INF (rules R131, R132, R136): the sum modulo 256, C the carry out of bit 7, Z of the result, and nothing else. -/
def Obligations.AdditionResults : Prop :=
  FdaResult .addc (fun fv s => BitVec.ofNat 8 (s.w.toNat + fv.toNat + s.c.toNat))
    (fun fv s => decide (255 < s.w.toNat + fv.toNat + s.c.toNat))
    (fun fv s => decide ((s.w.toNat + fv.toNat + s.c.toNat) % 256 = 0)) ∧
  FdaResult .addf (fun fv s => s.w + fv) (fun fv s => decide (255 < s.w.toNat + fv.toNat))
    (fun fv s => decide (s.w + fv = 0#8)) ∧
  FdaResult .inf (fun fv _ => fv + 1#8) (fun fv _ => decide (fv = 255#8)) (fun fv _ => decide (fv = 255#8))

/-- SUBC, SUBF, DCF (rules R135, R138, R139): the difference modulo 256, C = 1 exactly when no borrow happened, Z of the
result, and nothing else. -/
def Obligations.SubtractionResults : Prop :=
  FdaResult .subc (fun fv s => fv - s.w - (if s.c then 0#8 else 1#8))
    (fun fv s => decide (s.w.toNat + (if s.c then 0 else 1) ≤ fv.toNat))
    (fun fv s => decide (fv - s.w - (if s.c then 0#8 else 1#8) = 0#8)) ∧
  FdaResult .subf (fun fv s => fv - s.w) (fun fv s => decide (s.w.toNat ≤ fv.toNat)) (fun fv s => decide (fv = s.w)) ∧
  FdaResult .dcf (fun fv _ => fv - 1#8) (fun fv _ => decide (fv ≠ 0#8)) (fun fv _ => decide (fv = 1#8))

/-- ANDF, COMF, IORF, XORF (rules R133, R134, R137, R140): the logic result, Z of it, C kept, and nothing else. -/
def Obligations.LogicResults : Prop :=
  FdaResult .andf (fun fv s => s.w &&& fv) (fun _ s => s.c) (fun fv s => decide (s.w &&& fv = 0#8)) ∧
  FdaResult .comf (fun fv _ => BitVec.ofNat 8 (255 - fv.toNat)) (fun _ s => s.c) (fun fv _ => decide (fv = 255#8)) ∧
  FdaResult .iorf (fun fv s => s.w ||| fv) (fun _ s => s.c) (fun fv s => decide (s.w = 0#8 ∧ fv = 0#8)) ∧
  FdaResult .xorf (fun fv s => s.w ^^^ fv) (fun _ s => s.c) (fun fv s => decide (s.w = fv))

/-- SWPF (rule R164): the nibbles of f change places; no flag is written. RLF and RRF (rules R165, R167): each bit moves one
place, the end bit to the other end; Z = 1 exactly when f is 0, C kept. -/
def Obligations.SwapAndRotateResults : Prop :=
  FdaResult .swpf (fun fv _ => BitVec.ofNat 8 (fv.toNat % 16 * 16 + fv.toNat / 16)) (fun _ s => s.c) (fun _ s => s.z) ∧
  FdaResult .rlf (fun fv _ => BitVec.ofNat 8 (fv.toNat % 128 * 2 + fv.toNat / 128)) (fun _ s => s.c)
    (fun fv _ => decide (fv = 0#8)) ∧
  FdaResult .rrf (fun fv _ => BitVec.ofNat 8 (fv.toNat % 2 * 128 + fv.toNat / 2)) (fun _ s => s.c)
    (fun fv _ => decide (fv = 0#8))

/-- RLFC and RRFC (rules R166, R168): a rotate of the nine bits C and f; Z of the 8-bit result. -/
def Obligations.RotateThroughCarryResults : Prop :=
  FdaResult .rlfc (fun fv s => BitVec.ofNat 8 (fv.toNat % 128 * 2 + s.c.toNat)) (fun fv _ => decide (128 ≤ fv.toNat))
    (fun fv s => decide (fv.toNat % 128 = 0 ∧ s.c = false)) ∧
  FdaResult .rrfc (fun fv s => BitVec.ofNat 8 (s.c.toNat * 128 + fv.toNat / 2)) (fun fv _ => decide (fv.toNat % 2 = 1))
    (fun fv s => decide (fv.toNat / 2 = 0 ∧ s.c = false))

/-- ADDL and SUBL (rules R151, R155): k + W and k − W modulo 256 into W, with C and Z. -/
def Obligations.LiteralArithmeticResults : Prop :=
  LiteralResult .addl (fun k s => BitVec.ofNat 8 (s.w.toNat + k)) (fun k s => decide (255 < s.w.toNat + k))
    (fun k s => decide ((s.w.toNat + k) % 256 = 0)) ∧
  LiteralResult .subl (fun k s => BitVec.ofNat 8 k - s.w) (fun k s => decide (s.w.toNat ≤ k))
    (fun k s => decide (k = s.w.toNat))

/-- ANDL, IORL, XORL (rules R152, R153, R156): the logic result into W, Z of it, C kept. MVL (rule R154): k into W, no flag. -/
def Obligations.LiteralLogicResults : Prop :=
  LiteralResult .andl (fun k s => s.w &&& BitVec.ofNat 8 k) (fun _ s => s.c)
    (fun k s => decide (s.w &&& BitVec.ofNat 8 k = 0#8)) ∧
  LiteralResult .iorl (fun k s => s.w ||| BitVec.ofNat 8 k) (fun _ s => s.c)
    (fun k s => decide (s.w = 0#8 ∧ k = 0)) ∧
  LiteralResult .xorl (fun k s => s.w ^^^ BitVec.ofNat 8 k) (fun _ s => s.c) (fun k s => decide (s.w.toNat = k)) ∧
  LiteralResult .mvl (fun k _ => BitVec.ofNat 8 k) (fun _ s => s.c) (fun _ s => s.z)

/-- CLRF and SETF (rules R161, R162): 000H and 0FFH into any register that can be written, held or not; no flag. MVF
(rule R163): f into W for d = 0, W into f for d = 1, f not read; no flag. -/
def Obligations.ClearSetMoveResults : Prop :=
  (∀ (s : State) (f : Nat), f < 256 → s.pc ≠ 0x7FF#11 → Writable s.cfg f →
    exec (.clrf f 0) s = .next (stored s f 0x00#8 (s.pc + 1#11)) ∧
    exec (.setf f 0) s = .next (stored s f 0xFF#8 (s.pc + 1#11)) ∧
    exec (.mvf f 1 0) s = .next (stored s f s.w (s.pc + 1#11))) ∧
  (∀ (s : State) (f : Nat) (fv : Byte), f < 256 → s.pc ≠ 0x7FF#11 → Holds s f fv →
    exec (.mvf f 0 0) s = .next { s with w := fv, pc := s.pc + 1#11 })

/-- BCF, BSF, BTGF (rules R231 to R233): bit b of f becomes 0, 1 or its complement; the other seven bits and the flags stay. -/
def Obligations.BitResults : Prop :=
  BitResult .bcf (fun _ => false) ∧ BitResult .bsf (fun _ => true) ∧ BitResult .btgf (fun x => !x)

/-- CPSE, CPSG, CPSL, TFSZ (rules R181 to R183, R188): the skip is taken exactly when f = W, f > W, f < W, f = 0; the
comparison is unsigned where CMP_SIGNED is false. BTSS, BTSZ (rules R234, R235): bit b of f is 1, is 0. Only pc changes. -/
def Obligations.TestAndSkipResults : Prop :=
  TestResult (fun f => .cpse f 0) (fun fv s => decide (fv = s.w)) ∧
  TestResult (fun f => .cpsg f 0)
    (fun fv s => if s.cfg.cmpSigned then decide (s.w.toInt < fv.toInt) else decide (s.w.toNat < fv.toNat)) ∧
  TestResult (fun f => .cpsl f 0)
    (fun fv s => if s.cfg.cmpSigned then decide (fv.toInt < s.w.toInt) else decide (fv.toNat < s.w.toNat)) ∧
  TestResult (fun f => .tfsz f 0) (fun fv _ => decide (fv.toNat = 0)) ∧
  (∀ b < 8, TestResult (fun f => .btss f b 0) (fun fv _ => fv.getLsbD b) ∧
    TestResult (fun f => .btsz f b 0) (fun fv _ => !fv.getLsbD b))

/-- DCSUZ, DCSZ, INSUZ, INSZ (rules R184 to R187): f − 1 or f + 1 modulo 256 is stored, and the skip taken exactly when the
result is not zero or is zero; no flag. -/
def Obligations.CountAndSkipResults : Prop :=
  CountResult .dcsuz (fun fv => fv - 1#8) (fun r => decide (r ≠ 0#8)) ∧
  CountResult .dcsz (fun fv => fv - 1#8) (fun r => decide (r = 0#8)) ∧
  CountResult .insuz (fun fv => fv + 1#8) (fun r => decide (r ≠ 0#8)) ∧
  CountResult .insz (fun fv => fv + 1#8) (fun r => decide (r = 0#8))

/-- A skip that cannot be made is BadFetch(next) or PcOutOfRange, before anything is written (rules R180 and R240): all ten skip
instructions, both destinations. -/
def Obligations.SkipThatCannotBeMadeFaults : Prop :=
  SkipStops (fun f => .cpse f 0) (fun fv s => decide (fv = s.w)) ∧
  SkipStops (fun f => .cpsg f 0) (fun fv s => byteGreater s.cfg fv s.w) ∧
  SkipStops (fun f => .cpsl f 0) (fun fv s => byteLess s.cfg fv s.w) ∧
  SkipStops (fun f => .tfsz f 0) (fun fv _ => decide (fv = 0#8)) ∧
  (∀ b < 8, SkipStops (fun f => .btss f b 0) (fun fv _ => fv.getLsbD b) ∧
    SkipStops (fun f => .btsz f b 0) (fun fv _ => !fv.getLsbD b)) ∧
  (∀ d < 2, SkipStops (fun f => .dcsuz f d 0) (fun fv _ => decide (fv ≠ 1#8)) ∧
    SkipStops (fun f => .dcsz f d 0) (fun fv _ => decide (fv = 1#8)) ∧
    SkipStops (fun f => .insuz f d 0) (fun fv _ => decide (fv ≠ 255#8)) ∧
    SkipStops (fun f => .insz f d 0) (fun fv _ => decide (fv = 255#8)))

/-- JMP and NOP (rules R202, R207): pc becomes n, pc moves on; nothing else. CWDT, IDLE, SLP (rules R208 to R210): the counter and
TO become 0; IDLEB becomes 1 and the CPU halts; PD becomes 1 and the CPU sleeps; pc moves on first. -/
def Obligations.JumpNopAndPowerResults : Prop :=
  (∀ (s : State) (n : Nat), n < 2048 → exec (.jmp n) s = .next { s with pc := BitVec.ofNat 11 n }) ∧
  (∀ s : State, s.pc ≠ 0x7FF#11 →
    exec .nop s = .next { s with pc := s.pc + 1#11 } ∧
    exec .cwdt s = .next { s with wdt := 0, toFlag := false, pc := s.pc + 1#11 } ∧
    exec .idle s = .next { s with idleb := true, run := .idle, pc := s.pc + 1#11 } ∧
    exec .slp s = .next { s with pd := true, run := .sleep, pc := s.pc + 1#11 })

/-- NOP (rule R207): the word 0x0000; only pc changes, to the next address; at 7FFH PcOutOfRange. -/
def Obligations.NopOnlyMovesPc : Prop :=
  decode [0x0000] = .ok (.nop, []) ∧
  ∀ s : State, (s.pc ≠ 0x7FF#11 → exec .nop s = .next { s with pc := s.pc + 1#11 }) ∧
    (s.pc = 0x7FF#11 → exec .nop s = faults s (.pcOutOfRange s.pc))

/-- MVL k (rules R150 and R154): the word 0001 0011 and k; k goes to W, no flag is written and W is not read; at 7FFH
PcOutOfRange. -/
def Obligations.MvlLoadsTheConstant : Prop :=
  ∀ (s : State) (k : Nat), k < 256 →
    decode [BitVec.ofNat 16 (0x1300 + k)] = .ok (.mvl k, []) ∧
    (s.pc ≠ 0x7FF#11 → ∀ v : Byte,
      exec (.mvl k) { s with w := v } = .next { s with w := BitVec.ofNat 8 k, pc := s.pc + 1#11 }) ∧
    (s.pc = 0x7FF#11 → exec (.mvl k) s = faults s (.pcOutOfRange s.pc))

/-- JMP n (rule R202): two words, n[7:0] in the first and n[10:8] in the second; pc becomes n and nothing else changes, wherever
the instruction stands. -/
def Obligations.JmpGoesToItsOperand : Prop :=
  ∀ (s : State) (n : Nat), n < 2048 →
    decode [BitVec.ofNat 16 (0xE000 + n % 256), BitVec.ofNat 16 (0xF000 + n / 256)] = .ok (.jmp n, []) ∧
    ∃ t, exec (.jmp n) s = .next t ∧ t.pc.toNat = n ∧ t = { s with pc := t.pc }

/-- CALL (rule R203): the address after its two words is pushed and pc becomes n; on a full stack StackOverflow (rule R41), and
PcOutOfRange, tested before it, where that address exceeds 7FFH. That CALL is two words long is decision D4 (log entry 14). -/
def Obligations.CallResults : Prop :=
  ∀ (s : State) (n : Nat), n < 2048 →
    (s.pc.toNat + 2 < 2048 → s.sp < s.cfg.stackDepth →
      exec (.call n 0) s =
        .next { s with stack := BitVec.ofNat 11 (s.pc.toNat + 2) :: s.stack, pc := BitVec.ofNat 11 n }) ∧
    (s.pc.toNat + 2 < 2048 → s.cfg.stackDepth ≤ s.sp → exec (.call n 0) s = faults s (.stackOverflow s.pc)) ∧
    (2048 ≤ s.pc.toNat + 2 → exec (.call n 0) s = faults s (.pcOutOfRange s.pc))

/-- RET, RETI, RETL with an address on the stack (rules R204 to R206): it is popped into pc; RETI also sets GIE, RETL W; nothing
else changes. RETI is refused where interrupts are not modelled (rule R259). -/
def Obligations.ReturnResults : Prop :=
  ∀ (s : State) (t : PAddr) (rest : List PAddr), s.stack = t :: rest →
    exec (.ret 0) s = .next { s with stack := rest, pc := t } ∧
    (∀ k < 256, exec (.retl k) s = .next { s with stack := rest, pc := t, w := BitVec.ofNat 8 k }) ∧
    (s.cfg.interruptsModelled = true → exec (.reti 0) s = .next { s with stack := rest, pc := t, gie := true }) ∧
    (s.cfg.interruptsModelled = false → exec (.reti 0) s = refuses s .interruptsNotModelled)

/-- RET, RETI, RETL on an empty stack (rules R42 and R243): the fault StackUnderflowReset, which leaves STKUN and SKERR 1 and the
fault recorded, and nothing else changed: pc, W and GIE are as before. -/
def Obligations.ReturnOnEmptyStackResets : Prop :=
  ∀ (s : State) (k : Nat), k < 256 → s.stack = [] →
    let stop : Res State := faults { s with stkun := true, skerr := true } (.stackUnderflowReset s.pc)
    exec (.ret 0) s = stop ∧ exec (.retl k) s = stop ∧ (s.cfg.interruptsModelled = true → exec (.reti 0) s = stop)

/-! ### What stops an instruction -/

/-- a = 1 is refused as OperandA, s = 1 as OperandS, any other operand outside its range as OperandRange, whatever the state
(rules R62, R94 and R201). -/
def Obligations.OperandRefusals : Prop :=
  ∀ (i : Instr) (s : State),
    (i.operandA = 1 → exec i s = refuses s .operandA) ∧
    (i.operandS = 1 → exec i s = refuses s .operandS) ∧
    (i.operandA ≠ 1 → i.operandS ≠ 1 → i.wellFormed = false → exec i s = refuses s .operandRange)

/-- An instruction whose f names a flag register is refused as FlagRegisterAccess, and one whose f names an address of no known
class as UnknownDataAddress, for reading or for writing (rules R49, R63 and R64). -/
def Obligations.DataAddressRefusals : Prop :=
  ∀ (i : Instr) (s : State) (f : Nat), i.admitted = true → fileOperand i = some f → s.pc ≠ 0x7FF#11 → f ≠ 0x2C →
    s.cfg.addrPclatl ≠ some f →
    (s.cfg.isFlagReg f = true → exec i s = refuses s .flagRegisterAccess) ∧
    (s.cfg.isFlagReg f = false → s.cfg.inRam f = false → exec i s = refuses s .unknownDataAddress)

/-- An instruction that reads a RAM register nothing has written is UninitialisedRead (rules R24 and R63). -/
def Obligations.UnwrittenRamReadFaults : Prop :=
  ∀ (i : Instr) (s : State) (f : Nat), i.admitted = true → fileOperand i = some f → readsFile i = true →
    s.pc ≠ 0x7FF#11 → PlainRam s.cfg f → Memory.read s.ram f = none → exec i s = faults s (.uninitialisedRead f)

/-- At the top of the program space an instruction that uses `next` is PcOutOfRange (rule R28), whatever it would have read. That
CALL is two words long is decision D4 (log entry 14). -/
def Obligations.PcNeverWraps : Prop :=
  ∀ (i : Instr) (s : State), i.admitted = true → usesNext i = true → 2048 ≤ s.pc.toNat + i.words →
    exec i s = faults s (.pcOutOfRange s.pc)

/-! ### Whole computations -/

/-- Adding two 16-bit numbers a byte at a time: ADDF on the low bytes, ADDC on the high ones, gives the 16-bit sum and its
carry (rules R131, R132 and R141). -/
def Obligations.SixteenBitAddition : Prop :=
  ∀ (s : State) (lo hi : Nat) (x y : BitVec 16), lo < 256 → hi < 256 → lo ≠ hi → PlainRam s.cfg lo → PlainRam s.cfg hi →
    s.pc.toNat + 2 < 2048 → s.w = lowByte x → Memory.read s.ram lo = some (lowByte y) →
    Memory.read s.ram hi = some (highByte y) →
    ∃ t u, exec (.addf lo 1 0) s = .next t ∧ exec (.addc hi 1 0) { t with w := highByte x } = .next u ∧
      Memory.read u.ram lo = some (lowByte (x + y)) ∧ Memory.read u.ram hi = some (highByte (x + y)) ∧
      u.c = decide (65536 ≤ x.toNat + y.toNat)

/-- Subtracting 16-bit numbers a byte at a time: SUBF on the low bytes, SUBC on the high ones, gives the 16-bit difference, and
C = 1 exactly when no borrow happened (rules R138, R139 and R141). -/
def Obligations.SixteenBitSubtraction : Prop :=
  ∀ (s : State) (lo hi : Nat) (x y : BitVec 16), lo < 256 → hi < 256 → lo ≠ hi → PlainRam s.cfg lo → PlainRam s.cfg hi →
    s.pc.toNat + 2 < 2048 → s.w = lowByte x → Memory.read s.ram lo = some (lowByte y) →
    Memory.read s.ram hi = some (highByte y) →
    ∃ t u, exec (.subf lo 1 0) s = .next t ∧ exec (.subc hi 1 0) { t with w := highByte x } = .next u ∧
      Memory.read u.ram lo = some (lowByte (y - x)) ∧ Memory.read u.ram hi = some (highByte (y - x)) ∧
      u.c = decide (x.toNat ≤ y.toNat)

/-- Eight RLF restore f, eight RRF restore f, nine RLFC restore f and C, nine RRFC restore f and C, two SWPF restore f
(rules R164 to R168). -/
def Obligations.RotatesRestore : Prop :=
  ∀ (s : State) (f : Nat) (fv : Byte), f < 256 → PlainRam s.cfg f → Memory.read s.ram f = some fv → s.pc.toNat + 9 < 2048 →
    (∃ t, repeated (.rlf f 1 0) 8 s = .next t ∧ Memory.read t.ram f = some fv ∧ t.c = s.c) ∧
    (∃ t, repeated (.rrf f 1 0) 8 s = .next t ∧ Memory.read t.ram f = some fv ∧ t.c = s.c) ∧
    (∃ t, repeated (.rlfc f 1 0) 9 s = .next t ∧ Memory.read t.ram f = some fv ∧ t.c = s.c) ∧
    (∃ t, repeated (.rrfc f 1 0) 9 s = .next t ∧ Memory.read t.ram f = some fv ∧ t.c = s.c) ∧
    (∃ t, repeated (.swpf f 1 0) 2 s = .next t ∧ Memory.read t.ram f = some fv ∧ t.c = s.c ∧ t.z = s.z)

/-- For any f and W exactly one of CPSE, CPSG and CPSL skips, and of BTSS and BTSZ exactly one (rules R183 and R235). -/
def Obligations.ExactlyOneCompareSkips : Prop :=
  ∀ (s : State) (f b : Nat) (fv : Byte) (j : Instr), f < 256 → b < 8 → Holds s f fv → slotAt s (s.pc + 1#11) = .ok j →
    s.pc.toNat + 1 + j.words < 2048 →
    let stays (i : Instr) := exec i s = .next { s with pc := s.pc + 1#11 }
    let skips (i : Instr) := exec i s = .next { s with pc := BitVec.ofNat 11 (s.pc.toNat + 1 + j.words) }
    ((skips (.cpse f 0) ∧ stays (.cpsg f 0) ∧ stays (.cpsl f 0)) ∨
      (stays (.cpse f 0) ∧ skips (.cpsg f 0) ∧ stays (.cpsl f 0)) ∨
      (stays (.cpse f 0) ∧ stays (.cpsg f 0) ∧ skips (.cpsl f 0))) ∧
    ((skips (.btss f b 0) ∧ stays (.btsz f b 0)) ∨ (stays (.btss f b 0) ∧ skips (.btsz f b 0)))

/-- The look-up table (rule R211): in a table that crosses no 256-word boundary, ADDF PCLATL, 1, 0 goes to the entry W words after
the next instruction, and the RETL there returns to the caller with its constant in W. -/
def Obligations.TableLookupReturnsTheEntry : Prop :=
  ∀ (s : State) (p k : Nat) (r : PAddr) (rest : List PAddr), p < 256 → k < 256 → IsPclatl s.cfg p → s.stack = r :: rest →
    s.pc.toNat + 1 < 2048 → (s.pc.toNat + 1) % 256 + s.w.toNat < 256 →
    ∃ t u, exec (.addf p 1 0) s = .next t ∧ t.pc.toNat = s.pc.toNat + 1 + s.w.toNat ∧ t.w = s.w ∧ t.stack = s.stack ∧
      exec (.retl k) t = .next u ∧ u.pc = r ∧ u.stack = rest ∧ u.w = BitVec.ofNat 8 k

/-- A subroutine that leaves the stack as it found it returns to the instruction after its CALL (rules R203 and R204), at pc + 2:
that CALL is two words long is decision D4 (log entry 14). -/
def Obligations.ReturnFollowsCall : Prop :=
  ∀ (s : State) (n : Nat), n < 2048 → s.pc.toNat + 2 < 2048 → s.sp < s.cfg.stackDepth →
    ∃ t, exec (.call n 0) s = .next t ∧ t.pc = BitVec.ofNat 11 n ∧
      ∀ u : State, u.stack = t.stack → ∃ v, exec (.ret 0) u = .next v ∧ v.pc.toNat = s.pc.toNat + 2 ∧ v.stack = s.stack

end
end

