-- ==== Sys2Proof/Laws/Memory.lean ====
section
/-! SUPPORT. The laws of memory: what a read gives after a write, and that a write keeps the canonical form. -/

namespace Sys2Proof.Machine

variable {n : Nat}

theorem Memory.read_write_same (m : List (Nat × BitVec n)) (a : Nat) (v : BitVec n) :
    Memory.read (Memory.write m a v) a = some v := by
  induction m with
  | nil => simp [Memory.write, Memory.read]
  | cons x m ih =>
    obtain ⟨b, u⟩ := x
    simp only [Memory.write]
    split
    · simp [Memory.read]
    · split
      · simp [Memory.read]
      · rename_i h; simp [Memory.read, h, ih]

theorem Memory.read_write_other (m : List (Nat × BitVec n)) (a b : Nat) (v : BitVec n) (h : b ≠ a) :
    Memory.read (Memory.write m a v) b = Memory.read m b := by
  induction m with
  | nil => simp [Memory.write, Memory.read, h]
  | cons x m ih =>
    obtain ⟨k, u⟩ := x
    simp only [Memory.write]
    split
    · simp [Memory.read, h]
    · split
      · rename_i h'; subst h'; simp [Memory.read, h]
      · simp [Memory.read, ih]

/-- A write adds only its own address, so a bound below it and below the memory stays one. -/
theorem Memory.write_risingFrom (m : List (Nat × BitVec n)) (a : Nat) (v : BitVec n) (lo : Nat) (hlo : lo < a)
    (h : Memory.risingFrom (some lo) m = true) : Memory.risingFrom (some lo) (Memory.write m a v) = true := by
  induction m generalizing lo with
  | nil => simp [Memory.write, Memory.risingFrom, hlo]
  | cons x m ih =>
    obtain ⟨b, u⟩ := x
    simp only [Memory.risingFrom, Bool.and_eq_true, decide_eq_true_eq] at h
    simp only [Memory.write]
    split
    · simp_all [Memory.risingFrom]
    · split
      · subst_vars; simp_all [Memory.risingFrom]
      · have hb : b < a := by omega
        simp only [Memory.risingFrom, Bool.and_eq_true, decide_eq_true_eq]
        exact ⟨h.1, ih b hb h.2⟩

theorem Memory.write_wf (m : List (Nat × BitVec n)) (a : Nat) (v : BitVec n) (h : Memory.wf m = true) :
    Memory.wf (Memory.write m a v) = true := by
  cases m with
  | nil => rfl
  | cons x m =>
    obtain ⟨b, u⟩ := x
    simp only [Memory.wf, Memory.risingFrom] at h
    simp only [Memory.wf, Memory.write]
    split
    · simp_all [Memory.risingFrom]
    · split
      · subst_vars; simpa [Memory.risingFrom] using h
      · have hb : b < a := by omega
        simpa only [Memory.risingFrom] using Memory.write_risingFrom m a v b hb h

/-- An entry of a written memory is the one written or was there before. -/
theorem Memory.mem_write {m : List (Nat × BitVec n)} {a : Nat} {v : BitVec n} {x : Nat × BitVec n}
    (h : x ∈ Memory.write m a v) : x = (a, v) ∨ x ∈ m := by
  induction m with
  | nil => simpa [Memory.write] using h
  | cons y m ih =>
    obtain ⟨b, u⟩ := y
    simp only [Memory.write] at h
    split at h
    · simpa using h
    · split at h
      · rcases List.mem_cons.mp h with h | h
        · exact .inl h
        · exact .inr (List.mem_cons_of_mem _ h)
      · rcases List.mem_cons.mp h with h | h
        · exact .inr (by simp [h])
        · rcases ih h with h | h
          · exact .inl h
          · exact .inr (List.mem_cons_of_mem _ h)

end Sys2Proof.Machine
end

