-- ==== Sys2Proof/Laws/State.lean ====
section
/-! SUPPORT. One lemma per field for each named update of State, true by rfl, so that no proof unfolds a record update. -/

namespace Sys2Proof.Machine

section
variable (s : State)

@[simp] theorem State.setPc_cfg (p : PAddr) : (s.setPc p).cfg = s.cfg := rfl
@[simp] theorem State.setPc_w (p : PAddr) : (s.setPc p).w = s.w := rfl
@[simp] theorem State.setPc_ram (p : PAddr) : (s.setPc p).ram = s.ram := rfl
@[simp] theorem State.setPc_c (p : PAddr) : (s.setPc p).c = s.c := rfl
@[simp] theorem State.setPc_z (p : PAddr) : (s.setPc p).z = s.z := rfl
@[simp] theorem State.setPc_gie (p : PAddr) : (s.setPc p).gie = s.gie := rfl
@[simp] theorem State.setPc_toFlag (p : PAddr) : (s.setPc p).toFlag = s.toFlag := rfl
@[simp] theorem State.setPc_idleb (p : PAddr) : (s.setPc p).idleb = s.idleb := rfl
@[simp] theorem State.setPc_pd (p : PAddr) : (s.setPc p).pd = s.pd := rfl
@[simp] theorem State.setPc_skerr (p : PAddr) : (s.setPc p).skerr = s.skerr := rfl
@[simp] theorem State.setPc_stkun (p : PAddr) : (s.setPc p).stkun = s.stkun := rfl
@[simp] theorem State.setPc_stack (p : PAddr) : (s.setPc p).stack = s.stack := rfl
@[simp] theorem State.setPc_pc (p : PAddr) : (s.setPc p).pc = p := rfl
@[simp] theorem State.setPc_wdt (p : PAddr) : (s.setPc p).wdt = s.wdt := rfl
@[simp] theorem State.setPc_run (p : PAddr) : (s.setPc p).run = s.run := rfl
@[simp] theorem State.setPc_fault (p : PAddr) : (s.setPc p).fault = s.fault := rfl
@[simp] theorem State.setPc_refused (p : PAddr) : (s.setPc p).refused = s.refused := rfl
@[simp] theorem State.setPc_prog (p : PAddr) : (s.setPc p).prog = s.prog := rfl
@[simp] theorem State.setPc_inputs (p : PAddr) : (s.setPc p).inputs = s.inputs := rfl

@[simp] theorem State.setW_cfg (v : Byte) : (s.setW v).cfg = s.cfg := rfl
@[simp] theorem State.setW_w (v : Byte) : (s.setW v).w = v := rfl
@[simp] theorem State.setW_ram (v : Byte) : (s.setW v).ram = s.ram := rfl
@[simp] theorem State.setW_c (v : Byte) : (s.setW v).c = s.c := rfl
@[simp] theorem State.setW_z (v : Byte) : (s.setW v).z = s.z := rfl
@[simp] theorem State.setW_gie (v : Byte) : (s.setW v).gie = s.gie := rfl
@[simp] theorem State.setW_toFlag (v : Byte) : (s.setW v).toFlag = s.toFlag := rfl
@[simp] theorem State.setW_idleb (v : Byte) : (s.setW v).idleb = s.idleb := rfl
@[simp] theorem State.setW_pd (v : Byte) : (s.setW v).pd = s.pd := rfl
@[simp] theorem State.setW_skerr (v : Byte) : (s.setW v).skerr = s.skerr := rfl
@[simp] theorem State.setW_stkun (v : Byte) : (s.setW v).stkun = s.stkun := rfl
@[simp] theorem State.setW_stack (v : Byte) : (s.setW v).stack = s.stack := rfl
@[simp] theorem State.setW_pc (v : Byte) : (s.setW v).pc = s.pc := rfl
@[simp] theorem State.setW_wdt (v : Byte) : (s.setW v).wdt = s.wdt := rfl
@[simp] theorem State.setW_run (v : Byte) : (s.setW v).run = s.run := rfl
@[simp] theorem State.setW_fault (v : Byte) : (s.setW v).fault = s.fault := rfl
@[simp] theorem State.setW_refused (v : Byte) : (s.setW v).refused = s.refused := rfl
@[simp] theorem State.setW_prog (v : Byte) : (s.setW v).prog = s.prog := rfl
@[simp] theorem State.setW_inputs (v : Byte) : (s.setW v).inputs = s.inputs := rfl

@[simp] theorem State.setRam_cfg (a : Nat) (v : Byte) : (s.setRam a v).cfg = s.cfg := rfl
@[simp] theorem State.setRam_w (a : Nat) (v : Byte) : (s.setRam a v).w = s.w := rfl
@[simp] theorem State.setRam_ram (a : Nat) (v : Byte) : (s.setRam a v).ram = Memory.write s.ram a v := rfl
@[simp] theorem State.setRam_c (a : Nat) (v : Byte) : (s.setRam a v).c = s.c := rfl
@[simp] theorem State.setRam_z (a : Nat) (v : Byte) : (s.setRam a v).z = s.z := rfl
@[simp] theorem State.setRam_gie (a : Nat) (v : Byte) : (s.setRam a v).gie = s.gie := rfl
@[simp] theorem State.setRam_toFlag (a : Nat) (v : Byte) : (s.setRam a v).toFlag = s.toFlag := rfl
@[simp] theorem State.setRam_idleb (a : Nat) (v : Byte) : (s.setRam a v).idleb = s.idleb := rfl
@[simp] theorem State.setRam_pd (a : Nat) (v : Byte) : (s.setRam a v).pd = s.pd := rfl
@[simp] theorem State.setRam_skerr (a : Nat) (v : Byte) : (s.setRam a v).skerr = s.skerr := rfl
@[simp] theorem State.setRam_stkun (a : Nat) (v : Byte) : (s.setRam a v).stkun = s.stkun := rfl
@[simp] theorem State.setRam_stack (a : Nat) (v : Byte) : (s.setRam a v).stack = s.stack := rfl
@[simp] theorem State.setRam_pc (a : Nat) (v : Byte) : (s.setRam a v).pc = s.pc := rfl
@[simp] theorem State.setRam_wdt (a : Nat) (v : Byte) : (s.setRam a v).wdt = s.wdt := rfl
@[simp] theorem State.setRam_run (a : Nat) (v : Byte) : (s.setRam a v).run = s.run := rfl
@[simp] theorem State.setRam_fault (a : Nat) (v : Byte) : (s.setRam a v).fault = s.fault := rfl
@[simp] theorem State.setRam_refused (a : Nat) (v : Byte) : (s.setRam a v).refused = s.refused := rfl
@[simp] theorem State.setRam_prog (a : Nat) (v : Byte) : (s.setRam a v).prog = s.prog := rfl
@[simp] theorem State.setRam_inputs (a : Nat) (v : Byte) : (s.setRam a v).inputs = s.inputs := rfl

@[simp] theorem State.setCZ_cfg (x y : Bool) : (s.setCZ x y).cfg = s.cfg := rfl
@[simp] theorem State.setCZ_w (x y : Bool) : (s.setCZ x y).w = s.w := rfl
@[simp] theorem State.setCZ_ram (x y : Bool) : (s.setCZ x y).ram = s.ram := rfl
@[simp] theorem State.setCZ_c (x y : Bool) : (s.setCZ x y).c = x := rfl
@[simp] theorem State.setCZ_z (x y : Bool) : (s.setCZ x y).z = y := rfl
@[simp] theorem State.setCZ_gie (x y : Bool) : (s.setCZ x y).gie = s.gie := rfl
@[simp] theorem State.setCZ_toFlag (x y : Bool) : (s.setCZ x y).toFlag = s.toFlag := rfl
@[simp] theorem State.setCZ_idleb (x y : Bool) : (s.setCZ x y).idleb = s.idleb := rfl
@[simp] theorem State.setCZ_pd (x y : Bool) : (s.setCZ x y).pd = s.pd := rfl
@[simp] theorem State.setCZ_skerr (x y : Bool) : (s.setCZ x y).skerr = s.skerr := rfl
@[simp] theorem State.setCZ_stkun (x y : Bool) : (s.setCZ x y).stkun = s.stkun := rfl
@[simp] theorem State.setCZ_stack (x y : Bool) : (s.setCZ x y).stack = s.stack := rfl
@[simp] theorem State.setCZ_pc (x y : Bool) : (s.setCZ x y).pc = s.pc := rfl
@[simp] theorem State.setCZ_wdt (x y : Bool) : (s.setCZ x y).wdt = s.wdt := rfl
@[simp] theorem State.setCZ_run (x y : Bool) : (s.setCZ x y).run = s.run := rfl
@[simp] theorem State.setCZ_fault (x y : Bool) : (s.setCZ x y).fault = s.fault := rfl
@[simp] theorem State.setCZ_refused (x y : Bool) : (s.setCZ x y).refused = s.refused := rfl
@[simp] theorem State.setCZ_prog (x y : Bool) : (s.setCZ x y).prog = s.prog := rfl
@[simp] theorem State.setCZ_inputs (x y : Bool) : (s.setCZ x y).inputs = s.inputs := rfl

@[simp] theorem State.setStack_cfg (t : List PAddr) : (s.setStack t).cfg = s.cfg := rfl
@[simp] theorem State.setStack_w (t : List PAddr) : (s.setStack t).w = s.w := rfl
@[simp] theorem State.setStack_ram (t : List PAddr) : (s.setStack t).ram = s.ram := rfl
@[simp] theorem State.setStack_c (t : List PAddr) : (s.setStack t).c = s.c := rfl
@[simp] theorem State.setStack_z (t : List PAddr) : (s.setStack t).z = s.z := rfl
@[simp] theorem State.setStack_gie (t : List PAddr) : (s.setStack t).gie = s.gie := rfl
@[simp] theorem State.setStack_toFlag (t : List PAddr) : (s.setStack t).toFlag = s.toFlag := rfl
@[simp] theorem State.setStack_idleb (t : List PAddr) : (s.setStack t).idleb = s.idleb := rfl
@[simp] theorem State.setStack_pd (t : List PAddr) : (s.setStack t).pd = s.pd := rfl
@[simp] theorem State.setStack_skerr (t : List PAddr) : (s.setStack t).skerr = s.skerr := rfl
@[simp] theorem State.setStack_stkun (t : List PAddr) : (s.setStack t).stkun = s.stkun := rfl
@[simp] theorem State.setStack_stack (t : List PAddr) : (s.setStack t).stack = t := rfl
@[simp] theorem State.setStack_pc (t : List PAddr) : (s.setStack t).pc = s.pc := rfl
@[simp] theorem State.setStack_wdt (t : List PAddr) : (s.setStack t).wdt = s.wdt := rfl
@[simp] theorem State.setStack_run (t : List PAddr) : (s.setStack t).run = s.run := rfl
@[simp] theorem State.setStack_fault (t : List PAddr) : (s.setStack t).fault = s.fault := rfl
@[simp] theorem State.setStack_refused (t : List PAddr) : (s.setStack t).refused = s.refused := rfl
@[simp] theorem State.setStack_prog (t : List PAddr) : (s.setStack t).prog = s.prog := rfl
@[simp] theorem State.setStack_inputs (t : List PAddr) : (s.setStack t).inputs = s.inputs := rfl

@[simp] theorem State.consume_cfg : (s.consume).cfg = s.cfg := rfl
@[simp] theorem State.consume_w : (s.consume).w = s.w := rfl
@[simp] theorem State.consume_ram : (s.consume).ram = s.ram := rfl
@[simp] theorem State.consume_c : (s.consume).c = s.c := rfl
@[simp] theorem State.consume_z : (s.consume).z = s.z := rfl
@[simp] theorem State.consume_gie : (s.consume).gie = s.gie := rfl
@[simp] theorem State.consume_toFlag : (s.consume).toFlag = s.toFlag := rfl
@[simp] theorem State.consume_idleb : (s.consume).idleb = s.idleb := rfl
@[simp] theorem State.consume_pd : (s.consume).pd = s.pd := rfl
@[simp] theorem State.consume_skerr : (s.consume).skerr = s.skerr := rfl
@[simp] theorem State.consume_stkun : (s.consume).stkun = s.stkun := rfl
@[simp] theorem State.consume_stack : (s.consume).stack = s.stack := rfl
@[simp] theorem State.consume_pc : (s.consume).pc = s.pc := rfl
@[simp] theorem State.consume_wdt : (s.consume).wdt = s.wdt := rfl
@[simp] theorem State.consume_run : (s.consume).run = s.run := rfl
@[simp] theorem State.consume_fault : (s.consume).fault = s.fault := rfl
@[simp] theorem State.consume_refused : (s.consume).refused = s.refused := rfl
@[simp] theorem State.consume_prog : (s.consume).prog = s.prog := rfl
@[simp] theorem State.consume_inputs : (s.consume).inputs = s.inputs.tail := rfl

@[simp] theorem State.writeFlags_cfg (r : AluResult) : (s.writeFlags r).cfg = s.cfg := rfl
@[simp] theorem State.writeFlags_w (r : AluResult) : (s.writeFlags r).w = s.w := rfl
@[simp] theorem State.writeFlags_ram (r : AluResult) : (s.writeFlags r).ram = s.ram := rfl
@[simp] theorem State.writeFlags_c (r : AluResult) : (s.writeFlags r).c = r.c.getD s.c := rfl
@[simp] theorem State.writeFlags_z (r : AluResult) : (s.writeFlags r).z = r.z.getD s.z := rfl
@[simp] theorem State.writeFlags_gie (r : AluResult) : (s.writeFlags r).gie = s.gie := rfl
@[simp] theorem State.writeFlags_toFlag (r : AluResult) : (s.writeFlags r).toFlag = s.toFlag := rfl
@[simp] theorem State.writeFlags_idleb (r : AluResult) : (s.writeFlags r).idleb = s.idleb := rfl
@[simp] theorem State.writeFlags_pd (r : AluResult) : (s.writeFlags r).pd = s.pd := rfl
@[simp] theorem State.writeFlags_skerr (r : AluResult) : (s.writeFlags r).skerr = s.skerr := rfl
@[simp] theorem State.writeFlags_stkun (r : AluResult) : (s.writeFlags r).stkun = s.stkun := rfl
@[simp] theorem State.writeFlags_stack (r : AluResult) : (s.writeFlags r).stack = s.stack := rfl
@[simp] theorem State.writeFlags_pc (r : AluResult) : (s.writeFlags r).pc = s.pc := rfl
@[simp] theorem State.writeFlags_wdt (r : AluResult) : (s.writeFlags r).wdt = s.wdt := rfl
@[simp] theorem State.writeFlags_run (r : AluResult) : (s.writeFlags r).run = s.run := rfl
@[simp] theorem State.writeFlags_fault (r : AluResult) : (s.writeFlags r).fault = s.fault := rfl
@[simp] theorem State.writeFlags_refused (r : AluResult) : (s.writeFlags r).refused = s.refused := rfl
@[simp] theorem State.writeFlags_prog (r : AluResult) : (s.writeFlags r).prog = s.prog := rfl
@[simp] theorem State.writeFlags_inputs (r : AluResult) : (s.writeFlags r).inputs = s.inputs := rfl

@[simp] theorem State.setPc_sp (p : PAddr) : (s.setPc p).sp = s.sp := rfl
@[simp] theorem State.setW_sp (v : Byte) : (s.setW v).sp = s.sp := rfl
@[simp] theorem State.setRam_sp (a : Nat) (v : Byte) : (s.setRam a v).sp = s.sp := rfl
@[simp] theorem State.setCZ_sp (x y : Bool) : (s.setCZ x y).sp = s.sp := rfl
@[simp] theorem State.setStack_sp (t : List PAddr) : (s.setStack t).sp = t.length := rfl
@[simp] theorem State.consume_sp : s.consume.sp = s.sp := rfl
@[simp] theorem State.writeFlags_sp (r : AluResult) : (s.writeFlags r).sp = s.sp := rfl

end

end Sys2Proof.Machine
end

