-- ==== Sys2Proof/Laws/Ops.lean ====
section
/-! SUPPORT. For each shared operation, what it does when it answers a next state (or value): cited instead of unfolding. -/

namespace Sys2Proof.Machine

@[simp] theorem andThen_next {α β : Type} (v : α) (k : α → Res β) : andThen (.next v) k = k v := rfl
@[simp] theorem andThen_fault {α β : Type} (r : Fault) (k : α → Res β) : andThen (.fault r) k = .fault r := rfl
@[simp] theorem andThen_refused {α β : Type} (r : Refusal) (k : α → Res β) : andThen (.refused r) k = .refused r := rfl

@[simp] theorem andThen_raise {α β : Type} (s : State) (r : FaultReason) (k : α → Res β) : andThen (raise s r) k = raise s r := rfl
@[simp] theorem andThen_refuse {α β : Type} (s : State) (r : RefusalReason) (k : α → Res β) : andThen (refuse s r) k = refuse s r := rfl

@[simp] theorem raise_ne_next {α : Type} {s : State} {r : FaultReason} {v : α} : raise s r ≠ .next v := by
  intro h; cases h

@[simp] theorem refuse_ne_next {α : Type} {s : State} {r : RefusalReason} {v : α} : refuse s r ≠ .next v := by
  intro h; cases h

@[simp] theorem stackUnderflow_ne_next {α : Type} {s : State} {v : α} : stackUnderflow s ≠ .next v := by
  intro h; cases h

@[simp] theorem next_ne_raise {α : Type} {s : State} {r : FaultReason} {v : α} : .next v ≠ raise s r := by
  intro h; cases h

@[simp] theorem next_ne_refuse {α : Type} {s : State} {r : RefusalReason} {v : α} : .next v ≠ refuse s r := by
  intro h; cases h

@[simp] theorem next_ne_stackUnderflow {α : Type} {s : State} {v : α} : .next v ≠ stackUnderflow s := by
  intro h; cases h

/-- What a fault is (rule R240). -/
theorem raise_eq_fault {α : Type} {s t : State} {r q : FaultReason} :
    raise (α := α) s r = .fault (.raised q t) ↔ q = r ∧ t = { s with fault := some r } := by
  simp [raise, eq_comm]

/-- What a refusal is (rule R241). -/
theorem refuse_eq_refused {α : Type} {s t : State} {r q : RefusalReason} :
    refuse (α := α) s r = .refused (.raised q t) ↔ q = r ∧ t = { s with refused := some r } := by
  simp [refuse, eq_comm]

theorem andThen_eq_next {α β : Type} {x : Res α} {k : α → Res β} {b : β} :
    andThen x k = .next b ↔ ∃ v, x = .next v ∧ k v = .next b := by
  cases x <;> simp

theorem checkOperands_eq_next {s : State} {a sOp : Nat} {ok : Bool} {u : Unit} :
    checkOperands s a sOp ok = .next u ↔ a ≠ 1 ∧ sOp ≠ 1 ∧ ok = true := by
  unfold checkOperands
  split <;> [simp_all; (split <;> [simp_all; (split <;> simp_all)])]

theorem addrAfter_eq_next {s : State} {p q : PAddr} {len : Nat} :
    addrAfter s p len = .next q ↔ p.toNat + len < progSize ∧ q = p + BitVec.ofNat 11 len := by
  unfold addrAfter
  split <;> simp_all [eq_comm]

theorem nextAddr_eq_next {s : State} {q : PAddr} {len : Nat} :
    nextAddr s len = .next q ↔ s.pc.toNat + len < progSize ∧ q = s.pc + BitVec.ofNat 11 len := addrAfter_eq_next

theorem beginOne_eq_next {s : State} {a sOp : Nat} {ok : Bool} {q : PAddr} :
    beginOne s a sOp ok = .next q ↔
      a ≠ 1 ∧ sOp ≠ 1 ∧ ok = true ∧ s.pc.toNat + 1 < progSize ∧ q = s.pc + 1#11 := by
  simp only [beginOne, andThen_eq_next, checkOperands_eq_next, nextAddr_eq_next]
  constructor
  · rintro ⟨_, ⟨h1, h2, h3⟩, h4, h5⟩; exact ⟨h1, h2, h3, h4, h5⟩
  · rintro ⟨h1, h2, h3, h4, h5⟩; exact ⟨(), ⟨h1, h2, h3⟩, h4, h5⟩

/-- The address classes that can be read and written at all (10_state.md rule R22). -/
theorem dataClass_wreg_iff {g : Config} {f : Nat} : dataClass g f = .wreg ↔ f = addrWreg := by
  unfold dataClass
  repeat' split
  all_goals simp_all

theorem memRead_eq_next {s : State} {nxt : PAddr} {f : Nat} {v : Byte} :
    memRead s nxt f = .next v ↔
      (dataClass s.cfg f = .wreg ∧ v = s.w) ∨
      (dataClass s.cfg f = .pclatl ∧ v = pclatlRead nxt) ∨
      (dataClass s.cfg f = .ram ∧ Memory.read s.ram f = some v) := by
  unfold memRead
  cases h : dataClass s.cfg f <;> simp [eq_comm]
  cases h' : Memory.read s.ram f <;> simp [eq_comm]

theorem memWrite_eq_next {s t : State} {nxt p : PAddr} {f : Nat} {v : Byte} :
    memWrite s nxt p f v = .next t ↔
      (dataClass s.cfg f = .wreg ∧ t = (s.setW v).setPc p) ∨
      (dataClass s.cfg f = .pclatl ∧ t = s.setPc (pclatlTarget nxt v)) ∨
      (dataClass s.cfg f = .ram ∧ t = (s.setRam f v).setPc p) := by
  unfold memWrite
  cases h : dataClass s.cfg f <;> simp [eq_comm]

theorem writeDest_eq_next {s t : State} {nxt p : PAddr} {f d : Nat} {v : Byte} :
    writeDest s nxt p f d v = .next t ↔
      (d = 0 ∧ t = (s.setW v).setPc p) ∨ (d ≠ 0 ∧ memWrite s nxt p f v = .next t) := by
  unfold writeDest
  split <;> simp_all [eq_comm]

/-- A register that can be read can be written. -/
theorem memWrite_of_memRead {s : State} {nxt : PAddr} {f : Nat} {fv : Byte} (p : PAddr) (v : Byte)
    (h : memRead s nxt f = .next fv) : ∃ t, memWrite s nxt p f v = .next t := by
  rw [memRead_eq_next] at h
  unfold memWrite
  rcases h with ⟨h, _⟩ | ⟨h, _⟩ | ⟨h, _⟩ <;> simp [h]

theorem fetch_eq_next {s : State} {p : PAddr} {i : Instr} : fetch s p = .next i ↔ slotAt s p = .ok i := by
  unfold fetch
  cases slotAt s p <;> simp

theorem skipTarget_eq_next {s : State} {nxt q : PAddr} :
    skipTarget s nxt = .next q ↔
      ∃ j, slotAt s nxt = .ok j ∧ nxt.toNat + j.words < progSize ∧ q = nxt + BitVec.ofNat 11 j.words := by
  simp only [skipTarget, andThen_eq_next, fetch_eq_next, addrAfter_eq_next]

theorem skipIf_eq_next {s : State} {nxt q : PAddr} {cond : Bool} :
    skipIf s nxt cond = .next q ↔ (cond = true ∧ skipTarget s nxt = .next q) ∨ (cond = false ∧ q = nxt) := by
  unfold skipIf
  cases cond <;> simp [eq_comm]

theorem push_eq_next {s t : State} {v : PAddr} :
    push s v = .next t ↔ s.sp < s.cfg.stackDepth ∧ t = s.setStack (v :: s.stack) := by
  unfold push
  split <;> simp_all [eq_comm]

theorem popReturn_eq_next {s t : State} {also : State → State} :
    popReturn s also = .next t ↔
      ∃ p rest, s.stack = p :: rest ∧ t = also ((s.setStack rest).setPc p) := by
  unfold popReturn
  cases h : s.stack <;> simp [eq_comm]

theorem interruptEntry_eq_next {s t : State} :
    interruptEntry s = .next t ↔
      s.sp < s.cfg.stackDepth ∧
        t = { s.setStack (s.pc :: s.stack) with gie := false, pc := s.cfg.intVector } := by
  simp only [interruptEntry, andThen_eq_next, push_eq_next]
  constructor
  · rintro ⟨u, ⟨h, rfl⟩, h'⟩; simp at h'; exact ⟨h, h'.symm⟩
  · rintro ⟨h, rfl⟩; exact ⟨_, ⟨h, rfl⟩, rfl⟩

/-- What an f, d, a instruction does (rule R130). -/
theorem execFda_eq_next {op : Byte → Byte → Bool → AluResult} {f d a : Nat} {s t : State} :
    execFda op f d a s = .next t ↔
      a ≠ 1 ∧ inRangeFda f d a = true ∧ s.pc.toNat + 1 < progSize ∧
      ∃ fv, memRead s (s.pc + 1#11) f = .next fv ∧
        ∃ u, writeDest s (s.pc + 1#11) (s.pc + 1#11) f d (op fv s.w s.c).value = .next u ∧
          t = u.writeFlags (op fv s.w s.c) := by
  simp only [execFda, andThen_eq_next, beginOne_eq_next]
  constructor
  · rintro ⟨q, ⟨h1, -, h3, h4, rfl⟩, fv, h5, u, h6, h7⟩
    simp at h7
    exact ⟨h1, h3, h4, fv, h5, u, h6, h7.symm⟩
  · rintro ⟨h1, h3, h4, fv, h5, u, h6, rfl⟩
    exact ⟨_, ⟨h1, by simp, h3, h4, rfl⟩, fv, h5, u, h6, rfl⟩

/-- What a literal instruction does (rule R150). -/
theorem execLiteral_eq_next {op : Byte → Byte → AluResult} {k : Nat} {s t : State} :
    execLiteral op k s = .next t ↔
      inRangeK k = true ∧ s.pc.toNat + 1 < progSize ∧
        t = ((s.setPc (s.pc + 1#11)).setW (op (BitVec.ofNat 8 k) s.w).value).writeFlags (op (BitVec.ofNat 8 k) s.w) := by
  simp only [execLiteral, andThen_eq_next, beginOne_eq_next]
  constructor
  · rintro ⟨q, ⟨-, -, h3, h4, rfl⟩, h⟩
    simp at h
    exact ⟨h3, h4, h.symm⟩
  · rintro ⟨h3, h4, rfl⟩
    exact ⟨_, ⟨by simp, by simp, h3, h4, rfl⟩, rfl⟩

/-- What CLRF and SETF do (rule R160). -/
theorem execFill_eq_next {v : Byte} {f a : Nat} {s t : State} :
    execFill v f a s = .next t ↔
      a ≠ 1 ∧ inRangeFa f a = true ∧ s.pc.toNat + 1 < progSize ∧
        memWrite s (s.pc + 1#11) (s.pc + 1#11) f v = .next t := by
  simp only [execFill, andThen_eq_next, beginOne_eq_next]
  constructor
  · rintro ⟨q, ⟨h1, -, h3, h4, rfl⟩, h⟩
    exact ⟨h1, h3, h4, h⟩
  · rintro ⟨h1, h3, h4, h⟩
    exact ⟨_, ⟨h1, by simp, h3, h4, rfl⟩, h⟩

/-- What a test-and-skip instruction does (rules R181 to R183, R188, R234, R235). -/
theorem execTest_eq_next {cond : Byte → Byte → Bool} {f a : Nat} {ok : Bool} {s t : State} :
    execTest cond f a ok s = .next t ↔
      a ≠ 1 ∧ ok = true ∧ s.pc.toNat + 1 < progSize ∧
      ∃ fv, memRead s (s.pc + 1#11) f = .next fv ∧
        ∃ p, skipIf s (s.pc + 1#11) (cond fv s.w) = .next p ∧ t = s.setPc p := by
  simp only [execTest, andThen_eq_next, beginOne_eq_next]
  constructor
  · rintro ⟨q, ⟨h1, -, h3, h4, rfl⟩, fv, h5, p, h6, h7⟩
    simp at h7
    exact ⟨h1, h3, h4, fv, h5, p, h6, h7.symm⟩
  · rintro ⟨h1, h3, h4, fv, h5, p, h6, rfl⟩
    exact ⟨_, ⟨h1, by simp, h3, h4, rfl⟩, fv, h5, p, h6, rfl⟩

/-- What a count-and-skip instruction does (rules R184 to R187). -/
theorem execCount_eq_next {delta : Byte} {cond : Byte → Bool} {f d a : Nat} {s t : State} :
    execCount delta cond f d a s = .next t ↔
      a ≠ 1 ∧ inRangeFda f d a = true ∧ s.pc.toNat + 1 < progSize ∧
      ∃ fv, memRead s (s.pc + 1#11) f = .next fv ∧
        ∃ p, skipIf s (s.pc + 1#11) (cond (fv + delta)) = .next p ∧
          writeDest s (s.pc + 1#11) p f d (fv + delta) = .next t := by
  simp only [execCount, andThen_eq_next, beginOne_eq_next]
  constructor
  · rintro ⟨q, ⟨h1, -, h3, h4, rfl⟩, fv, h5, p, h6, h7⟩
    exact ⟨h1, h3, h4, fv, h5, p, h6, h7⟩
  · rintro ⟨h1, h3, h4, fv, h5, p, h6, h7⟩
    exact ⟨_, ⟨h1, by simp, h3, h4, rfl⟩, fv, h5, p, h6, h7⟩

/-- What BCF, BSF and BTGF do (rule R230). -/
theorem execBit_eq_next {op : Byte → Byte} {f b a : Nat} {s t : State} :
    execBit op f b a s = .next t ↔
      a ≠ 1 ∧ inRangeFba f b a = true ∧ s.pc.toNat + 1 < progSize ∧
      ∃ fv, memRead s (s.pc + 1#11) f = .next fv ∧
        memWrite s (s.pc + 1#11) (s.pc + 1#11) f (op fv) = .next t := by
  simp only [execBit, andThen_eq_next, beginOne_eq_next]
  constructor
  · rintro ⟨q, ⟨h1, -, h3, h4, rfl⟩, fv, h5, h6⟩
    exact ⟨h1, h3, h4, fv, h5, h6⟩
  · rintro ⟨h1, h3, h4, fv, h5, h6⟩
    exact ⟨_, ⟨h1, by simp, h3, h4, rfl⟩, fv, h5, h6⟩

/-- What MVF does (rule R163). -/
theorem execMvf_eq_next {f d a : Nat} {s t : State} :
    execMvf f d a s = .next t ↔
      a ≠ 1 ∧ inRangeFda f d a = true ∧ s.pc.toNat + 1 < progSize ∧
      ((d = 0 ∧ ∃ fv, memRead s (s.pc + 1#11) f = .next fv ∧ t = (s.setPc (s.pc + 1#11)).setW fv) ∨
       (d ≠ 0 ∧ memWrite s (s.pc + 1#11) (s.pc + 1#11) f s.w = .next t)) := by
  simp only [execMvf, andThen_eq_next, beginOne_eq_next]
  constructor
  · rintro ⟨q, ⟨h1, -, h3, h4, rfl⟩, h⟩
    refine ⟨h1, h3, h4, ?_⟩
    split at h
    · rw [andThen_eq_next] at h
      obtain ⟨fv, h5, h6⟩ := h
      simp at h6
      exact .inl ⟨‹_›, fv, h5, h6.symm⟩
    · exact .inr ⟨‹_›, h⟩
  · rintro ⟨h1, h3, h4, h⟩
    refine ⟨_, ⟨h1, by simp, h3, h4, rfl⟩, ?_⟩
    rcases h with ⟨h0, fv, h5, rfl⟩ | ⟨h0, h⟩
    · simp [h0, h5]
    · simp [h0, h]

/-! ### What a stop leaves -/

/-- Where the operation stops, it leaves the state s with the stop recorded and nothing else changed, and the stop is no stack
underflow (rules R240 and R241). -/
def StopsAt {α : Type} (s : State) (x : Res α) : Prop :=
  (∀ r t, x = .fault (.raised r t) → (∀ p, r ≠ .stackUnderflowReset p) ∧ t = { s with fault := some r }) ∧
  (∀ r t, x = .refused (.raised r t) → t = { s with refused := some r })

theorem stopsAt_next {α : Type} (s : State) (v : α) : StopsAt s (.next v) := by simp [StopsAt]

theorem stopsAt_raise {α : Type} {s : State} {r : FaultReason} (h : ∀ p, r ≠ .stackUnderflowReset p) :
    StopsAt (α := α) s (raise s r) := by
  constructor
  · intro q t e
    obtain ⟨rfl, rfl⟩ := raise_eq_fault.mp e
    exact ⟨h, rfl⟩
  · intro q t e; cases e

theorem stopsAt_refuse {α : Type} {s : State} {r : RefusalReason} : StopsAt (α := α) s (refuse s r) := by
  constructor
  · intro q t e; cases e
  · intro q t e
    obtain ⟨rfl, rfl⟩ := refuse_eq_refused.mp e
    rfl

theorem stopsAt_andThen {α β : Type} {s : State} {x : Res α} {k : α → Res β} (hx : StopsAt s x)
    (hk : ∀ v, x = .next v → StopsAt s (k v)) : StopsAt s (andThen x k) := by
  cases x with
  | next v => exact hk v rfl
  | fault r => exact ⟨fun q t e => hx.1 q t (by cases e; rfl), fun _ _ e => by cases e⟩
  | refused r => exact ⟨(fun _ _ e => by cases e), fun q t e => hx.2 q t (by cases e; rfl)⟩

theorem stopsAt_checkOperands (s : State) (a sOp : Nat) (ok : Bool) : StopsAt s (checkOperands s a sOp ok) := by
  unfold checkOperands
  repeat' split
  all_goals first | exact stopsAt_refuse | exact stopsAt_next _ _

theorem stopsAt_addrAfter (s : State) (p : PAddr) (len : Nat) : StopsAt s (addrAfter s p len) := by
  unfold addrAfter
  split
  · exact stopsAt_next _ _
  · exact stopsAt_raise (by simp)

theorem stopsAt_beginOne (s : State) (a sOp : Nat) (ok : Bool) : StopsAt s (beginOne s a sOp ok) :=
  stopsAt_andThen (stopsAt_checkOperands _ _ _ _) fun _ _ => stopsAt_addrAfter _ _ _

theorem stopsAt_fetch (s : State) (p : PAddr) : StopsAt s (fetch s p) := by
  unfold fetch
  split
  · exact stopsAt_next _ _
  · exact stopsAt_raise (by simp)

theorem stopsAt_skipIf (s : State) (nxt : PAddr) (cond : Bool) : StopsAt s (skipIf s nxt cond) := by
  unfold skipIf
  split
  · exact stopsAt_andThen (stopsAt_fetch _ _) fun _ _ => stopsAt_addrAfter _ _ _
  · exact stopsAt_next _ _

theorem stopsAt_memRead (s : State) (nxt : PAddr) (f : Nat) : StopsAt s (memRead s nxt f) := by
  unfold memRead
  repeat' split
  all_goals first | exact stopsAt_refuse | exact stopsAt_next _ _ | exact stopsAt_raise (by simp)

theorem stopsAt_memWrite (s : State) (nxt p : PAddr) (f : Nat) (v : Byte) : StopsAt s (memWrite s nxt p f v) := by
  unfold memWrite
  split
  all_goals first | exact stopsAt_refuse | exact stopsAt_next _ _

theorem stopsAt_writeDest (s : State) (nxt p : PAddr) (f d : Nat) (v : Byte) : StopsAt s (writeDest s nxt p f d v) := by
  unfold writeDest
  split
  · exact stopsAt_next _ _
  · exact stopsAt_memWrite _ _ _ _ _

theorem stopsAt_push (s : State) (v : PAddr) : StopsAt s (push s v) := by
  unfold push
  split
  · exact stopsAt_next _ _
  · exact stopsAt_raise (by simp)

theorem stopsAt_interruptEntry (s : State) : StopsAt s (interruptEntry s) :=
  stopsAt_andThen (stopsAt_push _ _) fun _ _ => stopsAt_next _ _

/-- A return that does not stop pops; one that stops is StackUnderflowReset (rules R42 and R243). -/
theorem popReturn_eq_fault {s t : State} {also : State → State} {r : FaultReason} :
    popReturn s also = .fault (.raised r t) ↔
      s.stack = [] ∧ r = .stackUnderflowReset s.pc ∧ t = { s with stkun := true, skerr := true, fault := some r } := by
  unfold popReturn
  split
  · simp only [stackUnderflow, raise_eq_fault, *, true_and]
    constructor <;> (rintro ⟨rfl, rfl⟩; exact ⟨rfl, rfl⟩)
  · simp [*]

end Sys2Proof.Machine
end

