-- ==== Sys2Proof/Laws/PerInstr.lean ====
section
/-! SUPPORT. Facts about every instruction as syntax, one lemma per constructor. -/

namespace Sys2Proof.Laws

/-- The encoder writes as many words as the instruction occupies (30_encoding.md rules R91 and R93). -/
def EncodeLength.Statement (i : Instr) : Prop := (encode i).length = i.words

theorem EncodeLength.nop : EncodeLength.Statement (.nop) := rfl
theorem EncodeLength.cwdt : EncodeLength.Statement (.cwdt) := rfl
theorem EncodeLength.idle : EncodeLength.Statement (.idle) := rfl
theorem EncodeLength.slp : EncodeLength.Statement (.slp) := rfl
theorem EncodeLength.ret (sOp : Nat) : EncodeLength.Statement (.ret sOp) := rfl
theorem EncodeLength.reti (sOp : Nat) : EncodeLength.Statement (.reti sOp) := rfl
theorem EncodeLength.addl (k : Nat) : EncodeLength.Statement (.addl k) := rfl
theorem EncodeLength.andl (k : Nat) : EncodeLength.Statement (.andl k) := rfl
theorem EncodeLength.iorl (k : Nat) : EncodeLength.Statement (.iorl k) := rfl
theorem EncodeLength.mvl (k : Nat) : EncodeLength.Statement (.mvl k) := rfl
theorem EncodeLength.retl (k : Nat) : EncodeLength.Statement (.retl k) := rfl
theorem EncodeLength.subl (k : Nat) : EncodeLength.Statement (.subl k) := rfl
theorem EncodeLength.xorl (k : Nat) : EncodeLength.Statement (.xorl k) := rfl
theorem EncodeLength.clrf (f a : Nat) : EncodeLength.Statement (.clrf f a) := rfl
theorem EncodeLength.cpse (f a : Nat) : EncodeLength.Statement (.cpse f a) := rfl
theorem EncodeLength.cpsg (f a : Nat) : EncodeLength.Statement (.cpsg f a) := rfl
theorem EncodeLength.cpsl (f a : Nat) : EncodeLength.Statement (.cpsl f a) := rfl
theorem EncodeLength.setf (f a : Nat) : EncodeLength.Statement (.setf f a) := rfl
theorem EncodeLength.tfsz (f a : Nat) : EncodeLength.Statement (.tfsz f a) := rfl
theorem EncodeLength.subc (f d a : Nat) : EncodeLength.Statement (.subc f d a) := rfl
theorem EncodeLength.subf (f d a : Nat) : EncodeLength.Statement (.subf f d a) := rfl
theorem EncodeLength.swpf (f d a : Nat) : EncodeLength.Statement (.swpf f d a) := rfl
theorem EncodeLength.xorf (f d a : Nat) : EncodeLength.Statement (.xorf f d a) := rfl
theorem EncodeLength.addc (f d a : Nat) : EncodeLength.Statement (.addc f d a) := rfl
theorem EncodeLength.addf (f d a : Nat) : EncodeLength.Statement (.addf f d a) := rfl
theorem EncodeLength.andf (f d a : Nat) : EncodeLength.Statement (.andf f d a) := rfl
theorem EncodeLength.comf (f d a : Nat) : EncodeLength.Statement (.comf f d a) := rfl
theorem EncodeLength.dcf (f d a : Nat) : EncodeLength.Statement (.dcf f d a) := rfl
theorem EncodeLength.dcsuz (f d a : Nat) : EncodeLength.Statement (.dcsuz f d a) := rfl
theorem EncodeLength.dcsz (f d a : Nat) : EncodeLength.Statement (.dcsz f d a) := rfl
theorem EncodeLength.inf (f d a : Nat) : EncodeLength.Statement (.inf f d a) := rfl
theorem EncodeLength.insuz (f d a : Nat) : EncodeLength.Statement (.insuz f d a) := rfl
theorem EncodeLength.insz (f d a : Nat) : EncodeLength.Statement (.insz f d a) := rfl
theorem EncodeLength.iorf (f d a : Nat) : EncodeLength.Statement (.iorf f d a) := rfl
theorem EncodeLength.mvf (f d a : Nat) : EncodeLength.Statement (.mvf f d a) := rfl
theorem EncodeLength.rlf (f d a : Nat) : EncodeLength.Statement (.rlf f d a) := rfl
theorem EncodeLength.rlfc (f d a : Nat) : EncodeLength.Statement (.rlfc f d a) := rfl
theorem EncodeLength.rrf (f d a : Nat) : EncodeLength.Statement (.rrf f d a) := rfl
theorem EncodeLength.rrfc (f d a : Nat) : EncodeLength.Statement (.rrfc f d a) := rfl
theorem EncodeLength.bcf (f b a : Nat) : EncodeLength.Statement (.bcf f b a) := rfl
theorem EncodeLength.bsf (f b a : Nat) : EncodeLength.Statement (.bsf f b a) := rfl
theorem EncodeLength.btgf (f b a : Nat) : EncodeLength.Statement (.btgf f b a) := rfl
theorem EncodeLength.btss (f b a : Nat) : EncodeLength.Statement (.btss f b a) := rfl
theorem EncodeLength.btsz (f b a : Nat) : EncodeLength.Statement (.btsz f b a) := rfl
theorem EncodeLength.call (n sOp : Nat) : EncodeLength.Statement (.call n sOp) := rfl
theorem EncodeLength.jmp (n : Nat) : EncodeLength.Statement (.jmp n) := rfl

end Sys2Proof.Laws
end

