-- ==== Sys2Proof/Tests/Slice0.lean ====
section
/-! SUPPORT. The model's own tests: the well-formedness smoke test, words written out from the encoding rules R96 to R103, one-step
vectors of 95_test_vectors.md (the id of each stands in its comment), and for each statement with hypotheses a witness that
meets them. Nothing here is the model's own answer pasted back. -/

namespace Sys2Proof.Tests

open Sys2Proof Sys2Proof.Machine Sys2Proof.Statement

/-! ### Well-formedness: one ill-formed term for each check, refused by the check and by exec (rule R94) -/

/-- The reason of the refusal an outcome is. -/
def refusalOf : Res State → Option RefusalReason
  | .refused (.raised r _) => some r
  | _ => none

/-- The reason of the fault an outcome is. -/
def faultOf : Res State → Option FaultReason
  | .fault (.raised r _) => some r
  | _ => none

/-- The state a stop leaves. -/
def leftOf : Res State → Option State
  | .fault (.raised _ t) => some t
  | .refused (.raised _ t) => some t
  | _ => none

/-- The next state an outcome carries. -/
def nextOf : Res State → Option State
  | .next t => some t
  | _ => none

theorem smoke_f : (Instr.addf 256 0 0).wellFormed = false ∧ refusalOf (exec (Instr.addf 256 0 0) State.reset) = some .operandRange := by decide

theorem smoke_d : (Instr.addf 0x80 2 0).wellFormed = false ∧ refusalOf (exec (Instr.addf 0x80 2 0) State.reset) = some .operandRange := by decide

theorem smoke_a : (Instr.addf 0x80 0 2).wellFormed = false ∧ refusalOf (exec (Instr.addf 0x80 0 2) State.reset) = some .operandRange := by decide

theorem smoke_fa_f : (Instr.clrf 256 0).wellFormed = false ∧ refusalOf (exec (Instr.clrf 256 0) State.reset) = some .operandRange := by decide

theorem smoke_fa_a : (Instr.clrf 0x80 2).wellFormed = false ∧ refusalOf (exec (Instr.clrf 0x80 2) State.reset) = some .operandRange := by decide

theorem smoke_fba_f : (Instr.bcf 256 0 0).wellFormed = false ∧ refusalOf (exec (Instr.bcf 256 0 0) State.reset) = some .operandRange := by decide

theorem smoke_b : (Instr.bcf 0x80 8 0).wellFormed = false ∧ refusalOf (exec (Instr.bcf 0x80 8 0) State.reset) = some .operandRange := by decide

theorem smoke_fba_a : (Instr.btss 0x80 0 2).wellFormed = false ∧ refusalOf (exec (Instr.btss 0x80 0 2) State.reset) = some .operandRange := by decide

theorem smoke_k : (Instr.mvl 256).wellFormed = false ∧ refusalOf (exec (Instr.mvl 256) State.reset) = some .operandRange := by decide

theorem smoke_s : (Instr.ret 2).wellFormed = false ∧ refusalOf (exec (Instr.ret 2) State.reset) = some .operandRange := by decide

theorem smoke_reti_s : (Instr.reti 2).wellFormed = false ∧ refusalOf (exec (Instr.reti 2) State.reset) = some .operandRange := by decide

theorem smoke_retl_k : (Instr.retl 256).wellFormed = false ∧ refusalOf (exec (Instr.retl 256) State.reset) = some .operandRange := by decide

theorem smoke_call_n : (Instr.call 2048 0).wellFormed = false ∧ refusalOf (exec (Instr.call 2048 0) State.reset) = some .operandRange := by decide

theorem smoke_call_s : (Instr.call 0 2).wellFormed = false ∧ refusalOf (exec (Instr.call 0 2) State.reset) = some .operandRange := by decide

theorem smoke_n : (Instr.jmp 2048).wellFormed = false ∧ refusalOf (exec (Instr.jmp 2048) State.reset) = some .operandRange := by decide

theorem smoke_highest_operands :
    (Instr.addf 255 1 1).wellFormed = true ∧ (Instr.clrf 255 1).wellFormed = true ∧ (Instr.bcf 255 7 1).wellFormed = true ∧
    (Instr.mvl 255).wellFormed = true ∧ (Instr.call 2047 1).wellFormed = true ∧ (Instr.jmp 2047).wellFormed = true ∧
    (Instr.reti 1).wellFormed = true := by decide

/-! ### Decoding: every constructor's word, written out bit by bit -/

/-- Formats Z and S (rules R100 and R101). -/
theorem test_decode_zs :
    decode [0b0000000000000000] = .ok (.nop, []) ∧
    decode [0b0000000000000001] = .ok (.cwdt, []) ∧
    decode [0b0000000000000010] = .ok (.idle, []) ∧
    decode [0b0000000000000011] = .ok (.slp, []) ∧
    decode [0b0000000000010000] = .ok (.ret 0, []) ∧
    decode [0b0000000000010001] = .ok (.ret 1, []) ∧
    decode [0b0000000000010010] = .ok (.reti 0, []) ∧
    decode [0b0000000000010011] = .ok (.reti 1, []) := by decide

/-- Format K (rule R99): k = 0A5H. -/
theorem test_decode_k :
    decode [0b0001000010100101] = .ok (.addl 0xA5, []) ∧
    decode [0b0001000110100101] = .ok (.andl 0xA5, []) ∧
    decode [0b0001001010100101] = .ok (.iorl 0xA5, []) ∧
    decode [0b0001001110100101] = .ok (.mvl 0xA5, []) ∧
    decode [0b0001010010100101] = .ok (.retl 0xA5, []) ∧
    decode [0b0001010110100101] = .ok (.subl 0xA5, []) ∧
    decode [0b0001011010100101] = .ok (.xorl 0xA5, []) := by decide

/-- Format FA (rule R97): f = 083H, a = 0 and 1 in turn. -/
theorem test_decode_fa :
    decode [0b0010000010000011] = .ok (.clrf 0x83 0, []) ∧
    decode [0b0010001110000011] = .ok (.cpse 0x83 1, []) ∧
    decode [0b0010010010000011] = .ok (.cpsg 0x83 0, []) ∧
    decode [0b0010011110000011] = .ok (.cpsl 0x83 1, []) ∧
    decode [0b0010100010000011] = .ok (.setf 0x83 0, []) ∧
    decode [0b0010101110000011] = .ok (.tfsz 0x83 1, []) := by decide

/-- Format FDA (rule R96), the first ten operations: f = 071H, each d and a. -/
theorem test_decode_fda_low :
    decode [0b0011001001110001] = .ok (.subc 0x71 1 0, []) ∧
    decode [0b0011010101110001] = .ok (.subf 0x71 0 1, []) ∧
    decode [0b0011100001110001] = .ok (.swpf 0x71 0 0, []) ∧
    decode [0b0011111101110001] = .ok (.xorf 0x71 1 1, []) ∧
    decode [0b0100001001110001] = .ok (.addc 0x71 1 0, []) ∧
    decode [0b0100010101110001] = .ok (.addf 0x71 0 1, []) ∧
    decode [0b0100100001110001] = .ok (.andf 0x71 0 0, []) ∧
    decode [0b0100111101110001] = .ok (.comf 0x71 1 1, []) ∧
    decode [0b0101001001110001] = .ok (.dcf 0x71 1 0, []) ∧
    decode [0b0101010101110001] = .ok (.dcsuz 0x71 0 1, []) := by decide

/-- Format FDA (rule R96), the other ten. -/
theorem test_decode_fda_high :
    decode [0b0101100001110001] = .ok (.dcsz 0x71 0 0, []) ∧
    decode [0b0101111101110001] = .ok (.inf 0x71 1 1, []) ∧
    decode [0b0110001001110001] = .ok (.insuz 0x71 1 0, []) ∧
    decode [0b0110010101110001] = .ok (.insz 0x71 0 1, []) ∧
    decode [0b0110100001110001] = .ok (.iorf 0x71 0 0, []) ∧
    decode [0b0110111101110001] = .ok (.mvf 0x71 1 1, []) ∧
    decode [0b0111001001110001] = .ok (.rlf 0x71 1 0, []) ∧
    decode [0b0111010101110001] = .ok (.rlfc 0x71 0 1, []) ∧
    decode [0b0111100001110001] = .ok (.rrf 0x71 0 0, []) ∧
    decode [0b0111111101110001] = .ok (.rrfc 0x71 1 1, []) := by decide

/-- Format FBA (rule R98): f = 0FEH. -/
theorem test_decode_fba :
    decode [0b1000010011111110] = .ok (.bcf 0xFE 2 0, []) ∧
    decode [0b1001111111111110] = .ok (.bsf 0xFE 7 1, []) ∧
    decode [0b1010101011111110] = .ok (.btgf 0xFE 5 0, []) ∧
    decode [0b1011000111111110] = .ok (.btss 0xFE 0 1, []) ∧
    decode [0b1100001011111110] = .ok (.btsz 0xFE 1 0, []) := by decide

/-- Format N2 (rule R102). -/
theorem test_decode_n2 :
    decode [0b1101000000110100, 0b1111000000000101] = .ok (.call 0x534 0, []) ∧
    decode [0b1101000111111111, 0b1111000000000111] = .ok (.call 0x7FF 1, []) ∧
    decode [0b1110000000100011, 0b1111000000000001] = .ok (.jmp 0x123, []) := by decide

/-- Reserved words, a second word alone, a missing and a wrong second word (rules R105 and R106). -/
theorem test_decode_rejects :
    decode [] = .error .emptySlot ∧ decode [0x0004] = .error (.reserved 0x0004) ∧ decode [0x0FFF] = .error (.reserved 0x0FFF) ∧
    decode [0x1700] = .error (.reserved 0x1700) ∧ decode [0x2C00] = .error (.reserved 0x2C00) ∧
    decode [0xD200] = .error (.reserved 0xD200) ∧ decode [0xE100] = .error (.reserved 0xE100) ∧
    decode [0xF001] = .error (.reserved 0xF001) ∧ decode [0xE023] = .error .noSecondWord ∧
    decode [0xE023, 0xF008] = .error (.badSecondWord 0xF008) := by decide

/-! ### One step from a small state: the vectors of 95_test_vectors.md. A component the vector leaves without a value is 0. -/

/-- The state before a vector: pc, W, REG(080H), C and Z. -/
def before (p : Nat) (w reg : Byte) (c z : Bool) : State :=
  { State.reset with pc := BitVec.ofNat 11 p, w := w, ram := [(0x80, reg)], c := c, z := z }

/-- The step that fetches and executes the words placed at pc. -/
def stepOn (s : State) (ws : List IWord) : Res State := step (placeWords s ws s.pc.toNat)

/-- What a vector shows of the state after: pc, W, REG(080H), C and Z. -/
def after (r : Res State) : Option (Nat × Byte × Option Byte × Bool × Bool) :=
  (nextOf r).map fun t => (t.pc.toNat, t.w, Memory.read t.ram 0x80, t.c, t.z)

/-- V-AL-3. -/
theorem test_addc : after (stepOn (before 0x000 0x00 0xFF true false) [0x4080]) =
    some (0x001, 0x00, some 0xFF, true, true) := by decide

/-- S-ADDC-2, its register at 080H. -/
theorem test_addc_file : after (stepOn (before 0x000 0x01 0x0E true false) [0x4280]) =
    some (0x001, 0x01, some 0x10, false, false) := by decide

/-- V-AL-7. -/
theorem test_addf : after (stepOn (before 0x000 0x01 0x7F true true) [0x4480]) =
    some (0x001, 0x80, some 0x7F, false, false) := by decide

/-- V-AL-9. -/
theorem test_addf_wreg : after (stepOn (before 0x000 0x81 0x33 false false) [0x462C]) =
    some (0x001, 0x02, some 0x33, true, false) := by decide

/-- V-AL-13. -/
theorem test_andf : after (stepOn (before 0x000 0xF0 0x0F true false) [0x4880]) =
    some (0x001, 0x00, some 0x0F, true, true) := by decide

/-- V-AL-15. -/
theorem test_comf : after (stepOn (before 0x000 0x55 0x00 false true) [0x4E80]) =
    some (0x001, 0x55, some 0xFF, false, false) := by decide

/-- V-AL-17. -/
theorem test_dcf : after (stepOn (before 0x000 0x55 0x00 true true) [0x5280]) =
    some (0x001, 0x55, some 0xFF, false, false) := by decide

/-- S-DCF-4. -/
theorem test_dcf_to_zero : after (stepOn (before 0x000 0x55 0x01 false false) [0x5080]) =
    some (0x001, 0x00, some 0x01, true, true) := by decide

/-- S-INF-1. -/
theorem test_inf : after (stepOn (before 0x000 0x55 0xFF false false) [0x5C80]) =
    some (0x001, 0x00, some 0xFF, true, true) := by decide

/-- S-INF-3. -/
theorem test_inf_no_overflow : after (stepOn (before 0x000 0x55 0x7F false false) [0x5E80]) =
    some (0x001, 0x55, some 0x80, false, false) := by decide

/-- S-IORF-1. -/
theorem test_iorf : after (stepOn (before 0x000 0x55 0xAA false false) [0x6880]) =
    some (0x001, 0xFF, some 0xAA, false, false) := by decide

/-- V-AL-24. -/
theorem test_subc : after (stepOn (before 0x000 0x05 0x05 false false) [0x3280]) =
    some (0x001, 0x05, some 0xFF, false, false) := by decide

/-- V-AL-23. -/
theorem test_subc_borrow : after (stepOn (before 0x000 0xFF 0x00 true false) [0x3080]) =
    some (0x001, 0x01, some 0x00, false, false) := by decide

/-- V-AL-27. -/
theorem test_subf : after (stepOn (before 0x000 0x01 0x00 false false) [0x3480]) =
    some (0x001, 0xFF, some 0x00, false, false) := by decide

/-- V-AL-28. -/
theorem test_subf_equal : after (stepOn (before 0x000 0x80 0x80 false false) [0x3680]) =
    some (0x001, 0x80, some 0x00, true, true) := by decide

/-- V-AL-31. -/
theorem test_xorf : after (stepOn (before 0x000 0xFF 0x0F false true) [0x3C80]) =
    some (0x001, 0xF0, some 0x0F, false, false) := by decide

/-- V-LI-3. -/
theorem test_addl : after (stepOn (before 0x000 0xFF 0x00 false true) [0x10FF]) =
    some (0x001, 0xFE, some 0x00, true, false) := by decide

/-- V-LI-5. -/
theorem test_andl : after (stepOn (before 0x000 0xFF 0x09 true false) [0x1100]) =
    some (0x001, 0x00, some 0x09, true, true) := by decide

/-- S-IORL-1. -/
theorem test_iorl : after (stepOn (before 0x000 0xAA 0x09 true true) [0x1255]) =
    some (0x001, 0xFF, some 0x09, true, false) := by decide

/-- V-LI-8. -/
theorem test_mvl : after (stepOn (before 0x000 0x77 0x09 true false) [0x1300]) =
    some (0x001, 0x00, some 0x09, true, false) := by decide

/-- V-LI-12. -/
theorem test_subl : after (stepOn (before 0x000 0x20 0x09 true true) [0x1510]) =
    some (0x001, 0xF0, some 0x09, false, false) := by decide

/-- S-SUBL-2. -/
theorem test_subl_no_borrow : after (stepOn (before 0x000 0x01 0x09 false false) [0x1580]) =
    some (0x001, 0x7F, some 0x09, true, false) := by decide

/-- V-LI-15. -/
theorem test_xorl : after (stepOn (before 0x000 0x5A 0x09 true false) [0x165A]) =
    some (0x001, 0x00, some 0x09, true, true) := by decide

/-- V-MV-1. -/
theorem test_clrf : after (stepOn (before 0x000 0x77 0x55 true false) [0x2080]) =
    some (0x001, 0x77, some 0x00, true, false) := by decide

/-- V-MV-2. -/
theorem test_clrf_wreg : after (stepOn (before 0x000 0x77 0x55 true false) [0x202C]) =
    some (0x001, 0x00, some 0x55, true, false) := by decide

/-- S-SETF-1. -/
theorem test_setf : after (stepOn (before 0x000 0x0F 0xAA false false) [0x2880]) =
    some (0x001, 0x0F, some 0xFF, false, false) := by decide

/-- V-MV-4. -/
theorem test_mvf_to_w : after (stepOn (before 0x000 0x55 0x00 true false) [0x6C80]) =
    some (0x001, 0x00, some 0x00, true, false) := by decide

/-- V-MV-3. -/
theorem test_mvf_to_file : after (stepOn (before 0x000 0x55 0xAA true true) [0x6E80]) =
    some (0x001, 0x55, some 0x55, true, true) := by decide

/-- V-MV-11. -/
theorem test_swpf : after (stepOn (before 0x000 0x09 0x12 true false) [0x3A80]) =
    some (0x001, 0x09, some 0x21, true, false) := by decide

/-- V-MV-12. -/
theorem test_rlf : after (stepOn (before 0x000 0x09 0x80 false true) [0x7280]) =
    some (0x001, 0x09, some 0x01, false, false) := by decide

/-- V-MV-14. -/
theorem test_rlfc : after (stepOn (before 0x000 0x09 0x80 false false) [0x7680]) =
    some (0x001, 0x09, some 0x00, true, true) := by decide

/-- V-MV-15. -/
theorem test_rlfc_carry_in : after (stepOn (before 0x000 0x09 0x00 true false) [0x7680]) =
    some (0x001, 0x09, some 0x01, false, false) := by decide

/-- V-MV-18. -/
theorem test_rrf : after (stepOn (before 0x000 0x09 0x01 false true) [0x7A80]) =
    some (0x001, 0x09, some 0x80, false, false) := by decide

/-- V-MV-19. -/
theorem test_rrfc : after (stepOn (before 0x000 0x09 0x01 false false) [0x7E80]) =
    some (0x001, 0x09, some 0x00, true, true) := by decide

/-- V-MV-20. -/
theorem test_rrfc_carry_in : after (stepOn (before 0x000 0x09 0x00 true false) [0x7E80]) =
    some (0x001, 0x09, some 0x80, false, false) := by decide

/-- V-SK-2. -/
theorem test_cpse_skips_two_words : after (stepOn (before 0x000 0x12 0x12 false false) [0x2280, 0xE000, 0xF001, 0x0000]) =
    some (0x003, 0x12, some 0x12, false, false) := by decide

/-- V-SK-3. -/
theorem test_cpse_stays : after (stepOn (before 0x000 0x12 0x13 false false) [0x2280, 0xE000, 0xF001, 0x0000]) =
    some (0x001, 0x12, some 0x13, false, false) := by decide

/-- V-SK-4. -/
theorem test_cpsg_unsigned : after (stepOn (before 0x000 0x7F 0x80 false false) [0x2480, 0x0000, 0x0000]) =
    some (0x002, 0x7F, some 0x80, false, false) := by decide

/-- V-SK-7. -/
theorem test_cpsg_equal : after (stepOn (before 0x000 0xFF 0xFF false false) [0x2480, 0x0000, 0x0000]) =
    some (0x001, 0xFF, some 0xFF, false, false) := by decide

/-- V-SK-9. -/
theorem test_cpsl_unsigned : after (stepOn (before 0x000 0x80 0x7F false false) [0x2680, 0x0000, 0x0000]) =
    some (0x002, 0x80, some 0x7F, false, false) := by decide

/-- V-SK-10. -/
theorem test_cpsl_equal : after (stepOn (before 0x000 0x00 0x00 false false) [0x2680, 0x0000, 0x0000]) =
    some (0x001, 0x00, some 0x00, false, false) := by decide

/-- V-SK-13. -/
theorem test_dcsuz : after (stepOn (before 0x000 0x09 0x00 false true) [0x5680, 0x0000, 0x0000]) =
    some (0x002, 0x09, some 0xFF, false, true) := by decide

/-- S-DCSUZ-1, its first step. -/
theorem test_dcsuz_stays : after (stepOn (before 0x000 0x0F 0x01 false false) [0x5680, 0x130A, 0x0000]) =
    some (0x001, 0x0F, some 0x00, false, false) := by decide

/-- V-SK-14. -/
theorem test_dcsz : after (stepOn (before 0x000 0x09 0x01 false false) [0x5A80, 0xE000, 0xF001, 0x0000]) =
    some (0x003, 0x09, some 0x00, false, false) := by decide

/-- V-SK-16. -/
theorem test_dcsz_to_w : after (stepOn (before 0x000 0x09 0x01 false false) [0x5880, 0x0000, 0x0000]) =
    some (0x002, 0x00, some 0x01, false, false) := by decide

/-- V-SK-18. -/
theorem test_insuz : after (stepOn (before 0x000 0x09 0xFE false false) [0x6080, 0x0000, 0x0000]) =
    some (0x002, 0xFF, some 0xFE, false, false) := by decide

/-- V-SK-17. -/
theorem test_insuz_stays : after (stepOn (before 0x000 0x09 0xFF false false) [0x6280, 0x0000, 0x0000]) =
    some (0x001, 0x09, some 0x00, false, false) := by decide

/-- V-SK-19. -/
theorem test_insz : after (stepOn (before 0x000 0x09 0xFF false false) [0x6680, 0x0000, 0x0000]) =
    some (0x002, 0x09, some 0x00, false, false) := by decide

/-- V-SK-20. -/
theorem test_insz_stays : after (stepOn (before 0x000 0x09 0x00 false false) [0x6680, 0x0000, 0x0000]) =
    some (0x001, 0x09, some 0x01, false, false) := by decide

/-- V-SK-21. -/
theorem test_tfsz : after (stepOn (before 0x000 0x09 0x00 false false) [0x2A80, 0x0000, 0x0000]) =
    some (0x002, 0x09, some 0x00, false, false) := by decide

/-- V-SK-23. -/
theorem test_tfsz_stays : after (stepOn (before 0x000 0x09 0x80 false false) [0x2A80, 0x0000, 0x0000]) =
    some (0x001, 0x09, some 0x80, false, false) := by decide

/-- V-BI-1. -/
theorem test_bcf : after (stepOn (before 0x000 0x09 0x01 false false) [0x8080]) =
    some (0x001, 0x09, some 0x00, false, false) := by decide

/-- S-BCF-1. -/
theorem test_bcf_middle : after (stepOn (before 0x000 0x09 0xFF false false) [0x8480]) =
    some (0x001, 0x09, some 0xFB, false, false) := by decide

/-- V-BI-3. -/
theorem test_bsf : after (stepOn (before 0x000 0x09 0x00 false false) [0x9E80]) =
    some (0x001, 0x09, some 0x80, false, false) := by decide

/-- V-BI-6. -/
theorem test_btgf : after (stepOn (before 0x000 0x09 0x00 false false) [0xA680]) =
    some (0x001, 0x09, some 0x08, false, false) := by decide

/-- V-BI-7. -/
theorem test_btgf_back : after (stepOn (before 0x000 0x09 0x08 false false) [0xA680]) =
    some (0x001, 0x09, some 0x00, false, false) := by decide

/-- V-BI-9. -/
theorem test_btss : after (stepOn (before 0x000 0x09 0x01 false false) [0xB080, 0xE000, 0xF001, 0x0000]) =
    some (0x003, 0x09, some 0x01, false, false) := by decide

/-- V-BI-10. -/
theorem test_btss_stays : after (stepOn (before 0x000 0x09 0x01 false false) [0xB280, 0x0000, 0x0000]) =
    some (0x001, 0x09, some 0x01, false, false) := by decide

/-- V-BI-12. -/
theorem test_btsz : after (stepOn (before 0x000 0x09 0x01 false false) [0xC280, 0x0000, 0x0000]) =
    some (0x002, 0x09, some 0x01, false, false) := by decide

/-- V-BI-11. -/
theorem test_btsz_stays : after (stepOn (before 0x000 0x09 0x01 false false) [0xC080, 0x0000, 0x0000]) =
    some (0x001, 0x09, some 0x01, false, false) := by decide

/-- V-CT-2. -/
theorem test_jmp : after (stepOn (before 0x7FE 0x09 0x01 true false) [0xE0FF, 0xF007]) =
    some (0x7FF, 0x09, some 0x01, true, false) := by decide

/-- V-CT-12. -/
theorem test_nop : after (stepOn (before 0x000 0x12 0x01 true false) [0x0000]) =
    some (0x001, 0x12, some 0x01, true, false) := by decide

/-! PCLATL (section 2.7): ADDR_PCLATL is 00AH in the standard configuration too. -/

/-- V-PC-2. -/
theorem test_pclatl_jump : after (stepOn (before 0x040 0x01 0x01 true true) [0x460A, 0x1455, 0x14AA]) =
    some (0x042, 0x01, some 0x01, false, false) := by decide

/-- V-PC-3. -/
theorem test_pclatl_wraps_in_its_page : after (stepOn (before 0x0FE 0x02 0x01 false false) [0x460A]) =
    some (0x001, 0x02, some 0x01, true, false) := by decide

/-- V-PC-5. -/
theorem test_pclatl_read : after (stepOn (before 0x123 0x00 0x01 false false) [0x6C0A]) =
    some (0x124, 0x24, some 0x01, false, false) := by decide

/-- V-PC-7. -/
theorem test_pclatl_page : after (stepOn (before 0x323 0x09 0x01 false false) [0x200A]) =
    some (0x300, 0x09, some 0x01, false, false) := by decide

/-! The stack, the interrupt, the power states (section 2.5). The spec prints the stack TOS last, the model holds it TOS first. -/

/-- A state with a stack, TOS first. -/
def withStack (p : Nat) (t : List PAddr) : State := { before p 0x33 0 false false with stack := t }

/-- pc, W, the stack and GIE after a step. -/
def afterStack (r : Res State) : Option (Nat × Byte × List PAddr × Bool) :=
  (nextOf r).map fun t => (t.pc.toNat, t.w, t.stack, t.gie)

/-- V-CT-4. -/
theorem test_call : afterStack (stepOn (withStack 0x011 [0x005]) [0xD040, 0xF000]) =
    some (0x040, 0x33, [0x013, 0x005], false) := by decide

/-- V-CT-7. -/
theorem test_call_on_full_stack :
    faultOf (stepOn (withStack 0x011 [4, 3, 2, 1]) [0xD040, 0xF000]) = some (.stackOverflow 0x011) := by decide

/-- V-CT-5. -/
theorem test_ret : afterStack (stepOn (withStack 0x040 [0x013, 0x005]) [0x0010]) =
    some (0x013, 0x33, [0x005], false) := by decide

/-- V-CT-8. -/
theorem test_reti : afterStack (stepOn (withStack 0x300 [0x020]) [0x0012]) = some (0x020, 0x33, [], true) := by decide

/-- V-CT-9: INTERRUPTS_MODELLED = false. -/
theorem test_reti_not_modelled :
    refusalOf (stepOn { withStack 0x300 [0x020] with cfg := { Config.standard with interruptsModelled := false } } [0x0012]) =
      some .interruptsNotModelled := by decide

/-- V-CT-14. -/
theorem test_retl : afterStack (stepOn (withStack 0x041 [0x013]) [0x1400]) = some (0x013, 0x00, [], false) := by decide

/-- V-CT-15: on an empty stack W is not written, SKERR and STKUN are set, and the run ends. -/
theorem test_retl_underflow :
    (leftOf (stepOn (withStack 0x041 []) [0x1455])).map (fun t => (t.pc, t.w, t.skerr, t.stkun, faultOf (step t))) =
      some (0x041, 0x33, true, true, some (.stackUnderflowReset 0x041)) := by decide

/-- V-CT-6. -/
theorem test_ret_underflow :
    faultOf (stepOn (withStack 0x040 []) [0x0010]) = some (.stackUnderflowReset 0x040) ∧
    (leftOf (stepOn (withStack 0x040 []) [0x0010])).map (fun t => (t.skerr, t.stkun, t.fault)) =
      some (true, true, some (.stackUnderflowReset 0x040)) := by decide

/-- V-CT-16. -/
theorem test_cwdt :
    (nextOf (stepOn { State.reset with toFlag := true, wdt := 0x5A } [0x0001])).map (fun t => (t.pc, t.toFlag, t.wdt)) =
      some (0x001, false, 0) := by decide

/-- V-CT-17. -/
theorem test_idle : (nextOf (stepOn State.reset [0x0002, 0x0000])).map (fun t => (t.pc, t.idleb, t.pd, t.run)) =
    some (0x001, true, false, .idle) := by decide

/-- V-CT-18. -/
theorem test_slp : (nextOf (stepOn State.reset [0x0003, 0x0000])).map (fun t => (t.pc, t.idleb, t.pd, t.run)) =
    some (0x001, false, true, .sleep) := by decide

/-- V-CT-21: nothing steps a halted CPU whose wake-up is not modelled. -/
theorem test_halted_is_final :
    nextOf (step { State.reset with cfg := { Config.standard with wakeModelled := false }, pc := 1, run := .idle }) =
      some { State.reset with cfg := { Config.standard with wakeModelled := false }, pc := 1, run := .idle } := by decide

/-- V-CT-22: interrupt entry with INT_VECTOR = 010H. -/
theorem test_interrupt_entry :
    (nextOf (stepOn { before 0x020 0x12 0 true false with gie := true, inputs := [⟨true, false⟩] } [0x0000])).map
        (fun t => ((t.pc, t.stack, t.gie), (t.w, t.c, t.inputs))) =
      some ((0x010, [0x020], false), (0x12, true, [])) := by decide

/-- V-CT-22, its second half: GIE = 0, so the instruction executes. -/
theorem test_no_interrupt_entry :
    after (stepOn { before 0x020 0x12 0 true false with inputs := [⟨true, false⟩] } [0x0000]) =
      some (0x021, 0x12, some 0x00, true, false) := by decide

/-! What stops a step (sections 2.1 to 2.7). -/

/-- V-AL-11, V-MV-9, V-BI-13: a = 1. -/
theorem test_operand_a :
    refusalOf (stepOn (before 0 1 1 false false) [0x4580]) = some .operandA ∧
    refusalOf (stepOn State.reset [0x2980]) = some .operandA ∧
    refusalOf (stepOn (before 0 1 0 false false) [0x9580]) = some .operandA := by decide

/-- V-CT-11, V-CT-19: s = 1. -/
theorem test_operand_s :
    refusalOf (stepOn (withStack 0x040 [0x020]) [0x0011]) = some .operandS ∧
    refusalOf (stepOn State.reset [0xD140, 0xF000]) = some .operandS := by decide

/-- V-AL-12, and V-PC-8 with ADDR_PCLATL not bound. -/
theorem test_unknown_address :
    refusalOf (stepOn (before 0 1 1 false false) [0x4410]) = some .unknownDataAddress ∧
    refusalOf (stepOn { State.reset with cfg := { Config.standard with addrPclatl := none } } [0x460A]) =
      some .unknownDataAddress := by decide

/-- Decision D11: with Status bound to 003H an access through f is refused. -/
theorem test_flag_register :
    refusalOf (stepOn { State.reset with cfg := { Config.standard with addrStatus := some 3 } } [0x2003]) =
      some .flagRegisterAccess := by decide

/-- V-AL-10, V-MV-5, V-BI-4: a register nothing has written. -/
theorem test_uninitialised_read :
    faultOf (stepOn State.reset [0x4480]) = some (.uninitialisedRead 0x80) ∧
    faultOf (stepOn State.reset [0x6C80]) = some (.uninitialisedRead 0x80) ∧
    faultOf (stepOn State.reset [0x9080]) = some (.uninitialisedRead 0x80) := by decide

/-- V-AL-32, V-CT-13, V-CT-20: no next address. -/
theorem test_pc_out_of_range :
    faultOf (stepOn (before 0x7FF 1 1 false false) [0x4680]) = some (.pcOutOfRange 0x7FF) ∧
    faultOf (stepOn { State.reset with pc := 0x7FF } [0x0000]) = some (.pcOutOfRange 0x7FF) ∧
    faultOf (stepOn { State.reset with pc := 0x7FE } [0xD040, 0xF000]) = some (.pcOutOfRange 0x7FE) := by decide

/-- V-SK-24, V-SK-28, V-SK-26, V-SK-29: a skip that cannot be made. -/
theorem test_skip_faults :
    faultOf (stepOn (before 0 0 0 false false) [0x2A80]) = some (.badFetch 0x001) ∧
    faultOf (stepOn (before 0 0 1 false false) [0x5A80]) = some (.badFetch 0x001) ∧
    faultOf (stepOn (before 0x7FE 0 0 false false) [0x2A80, 0x0000]) = some (.pcOutOfRange 0x7FE) ∧
    faultOf (stepOn (before 0x7FE 0x55 0 false false) [0x6080, 0x0000]) = some (.pcOutOfRange 0x7FE) := by decide

/-- V-SK-25, V-SK-27: without a skip the same slots are not looked at. -/
theorem test_no_skip_no_fault :
    after (stepOn (before 0 0 1 false false) [0x2A80]) = some (0x001, 0, some 0x01, false, false) ∧
    after (stepOn (before 0x7FE 0 1 false false) [0x2A80, 0x0000]) = some (0x7FF, 0, some 0x01, false, false) := by decide

/-- A fault is recorded and a refusal marked in the state the step leaves, which is otherwise the one before it (rules R240, R241). -/
theorem test_stops_are_recorded :
    leftOf (step { State.reset with w := 0x5A }) = some { State.reset with w := 0x5A, fault := some (.badFetch 0x000) } ∧
    leftOf (exec (.mvl 256) { State.reset with w := 0x5A }) =
      some { State.reset with w := 0x5A, refused := some .operandRange } := by decide

/-- The state a refused step leaves is refused again and is not final (rule R241). -/
theorem test_refused_mark_stays :
    (leftOf (stepOn State.reset [0x2980])).map (fun t => (refusalOf (step t), t.final)) = some (some .operandA, false) := by decide

/-- From reset with no program placed the first fetch finds an empty slot (rule R70). -/
theorem test_reset_step : faultOf (step State.reset) = some (.badFetch 0x000) := by decide

/-- The reset state's two memories have the canonical form. -/
theorem test_reset_memory : Memory.wf State.reset.ram = true ∧ Memory.wf State.reset.prog = true := by decide

/-- The standard configuration meets the conditions of rules R5, R22 and R63. -/
theorem test_standard_configuration : Config.standard.wellFormed = true := by decide

/-- A layout that gives each flag of a register a bit of its own is well formed; one with two flags on one bit, or STKUN inside the
pointer field, is not (rule R5). -/
theorem test_layout :
    ({ Config.standard with layout := ⟨some 4, some 0, some 7, some 0, some 1, some 2, some 3, some 7, some (0, 2)⟩ } :
      Config).wellFormed = true ∧
    ({ FlagLayout.unbound with c := some 4, z := some 4 } : FlagLayout).wellFormed = false ∧
    ({ FlagLayout.unbound with stkun := some 2, pointer := some (0, 2) } : FlagLayout).wellFormed = false := by decide

/-- The opcode-table words of MVL and JMP (rules R99 and R102) through the host's two functions: the two-word JMP needs its second
word, so its first word alone is rejected. -/
theorem test_table_words :
    decodeTableWord 16 0x135A = some (.mvl 0x5A) ∧ decodeTableWord 32 0xF001E023 = some (.jmp 0x123) ∧
    decodeTableWord 16 0xE023 = none := by decide

/-- The same words stored where the step fetches. -/
theorem test_fetch_word :
    after (step (State.reset.withFetchWord 16 0x135A)) = some (0x001, 0x5A, none, false, false) ∧
    after (step (State.reset.withFetchWord 32 0xF001E023)) = some (0x123, 0x00, none, false, false) := by decide

/-! ### Witnesses: for each statement with hypotheses, states and operands that meet them together, clause by clause -/

/-- W = 12H, REG(070H) = 34H, REG(0FFH) = 56H, C = 1, one return address, at 0F0H; at 0F1H a NOP, at 0F2H a JMP. -/
def base : State :=
  { State.reset with
    pc := 0x0F0, w := 0x12, ram := [(0x70, 0x34), (0xFF, 0x56)], c := true, stack := [0x123],
    prog := [(0xF0, 0x0000), (0xF1, 0x0000), (0xF2, 0xE000), (0xF3, 0xF001)] }

/-- Each class of register read at the boundaries of its range: 02CH, PCLATL, 070H and 0FFH of RAM (rules R22 and R63). -/
theorem witness_Holds :
    Holds base 0x2C 0x12 ∧ Holds base 0x0A 0xF1 ∧ Holds base 0x70 0x34 ∧ Holds base 0xFF 0x56 := by
  simp only [Holds, IsPclatl, PlainRam]; decide

/-- The hypotheses of the f, d, a statements, for both destinations and at the highest pc they allow: AdditionResults,
SubtractionResults, LogicResults, SwapAndRotateResults, RotateThroughCarryResults. -/
theorem witness_FdaResult :
    (0xFF : Nat) < 256 ∧ (0 : Nat) < 2 ∧ (1 : Nat) < 2 ∧ ({ base with pc := 0x7FE } : State).pc ≠ 0x7FF#11 ∧
    Holds { base with pc := 0x7FE } 0xFF 0x56 := by
  simp only [Holds, IsPclatl, PlainRam]; decide

/-- The hypotheses of LiteralArithmeticResults and LiteralLogicResults. -/
theorem witness_LiteralResult : (0 : Nat) < 256 ∧ (255 : Nat) < 256 ∧ base.pc ≠ 0x7FF#11 := by decide

/-- The hypotheses of BitResults, at both ends of b. -/
theorem witness_BitResult : (0x70 : Nat) < 256 ∧ (0 : Nat) < 8 ∧ (7 : Nat) < 8 ∧ base.pc ≠ 0x7FF#11 ∧ Holds base 0x70 0x34 := by
  simp only [Holds, IsPclatl, PlainRam]; decide

/-- The hypotheses of ClearSetMoveResults: a register not yet written, W and PCLATL can be written; 070H can be read. -/
theorem witness_ClearSetMoveResults :
    (0x80 : Nat) < 256 ∧ base.pc ≠ 0x7FF#11 ∧ Writable base.cfg 0x80 ∧ Writable base.cfg 0x2C ∧ Writable base.cfg 0x0A ∧
    Holds base 0x70 0x34 := by
  simp only [Writable, Holds, IsPclatl, PlainRam]; decide

/-- The hypotheses of TestAndSkipResults and CountAndSkipResults with the skip taken: over one word at 0F0H, over two at 0F1H,
and to the highest target. -/
theorem witness_TestResult :
    (∃ s : State, s = { base with w := 0x34 } ∧ s.pc ≠ 0x7FF#11 ∧ Holds s 0x70 0x34 ∧ decide (0x34#8 = s.w) = true ∧
      slotAt s (s.pc + 1#11) = .ok .nop ∧ s.pc.toNat + 1 + Instr.nop.words < 2048) ∧
    (∃ s : State, s = { base with w := 0x34, pc := 0x0F1 } ∧ s.pc ≠ 0x7FF#11 ∧ Holds s 0x70 0x34 ∧
      decide (0x34#8 = s.w) = true ∧ slotAt s (s.pc + 1#11) = .ok (.jmp 0x100) ∧
      s.pc.toNat + 1 + (Instr.jmp 0x100).words < 2048) ∧
    (∃ s : State, s = { base with w := 0x34, pc := 0x7FD, prog := [(0x7FE, 0x0000)] } ∧ s.pc ≠ 0x7FF#11 ∧ Holds s 0x70 0x34 ∧
      decide (0x34#8 = s.w) = true ∧ slotAt s (s.pc + 1#11) = .ok .nop ∧ s.pc.toNat + 1 + Instr.nop.words < 2048) := by
  simp only [Holds, IsPclatl, PlainRam]
  refine ⟨⟨_, rfl, ?_⟩, ⟨_, rfl, ?_⟩, ⟨_, rfl, ?_⟩⟩ <;> decide

/-- Each condition of TestAndSkipResults and CountAndSkipResults is met by some register and by another not: f = W, f > W,
f < W, f = 0, the bit set, and a result that is zero. -/
theorem witness_conditions :
    Holds { base with w := 0x34 } 0x70 0x34 ∧ Holds base 0x70 0x34 ∧ Holds { base with w := 0x35 } 0x70 0x34 ∧
    Holds { base with ram := [(0x70, 0x00)] } 0x70 0x00 ∧ Holds { base with ram := [(0x70, 0x01)] } 0x70 0x01 ∧
    Holds { base with ram := [(0x70, 0xFF)] } 0x70 0xFF := by
  simp only [Holds, IsPclatl, PlainRam]
  refine ⟨?_, ?_, ?_, ?_, ?_, ?_⟩ <;> decide

/-- The hypotheses of SkipThatCannotBeMadeFaults: an empty slot after the skip, and a skip target of 800H. -/
theorem witness_SkipStops :
    (∃ s : State, s = { base with w := 0x34, prog := [] } ∧ s.pc ≠ 0x7FF#11 ∧ Holds s 0x70 0x34 ∧
      decide (0x34#8 = s.w) = true ∧ slotAt s (s.pc + 1#11) = .error .emptySlot) ∧
    (∃ s : State, s = { base with w := 0x34, pc := 0x7FE, prog := [(0x7FF, 0x0000)] } ∧ s.pc ≠ 0x7FF#11 ∧ Holds s 0x70 0x34 ∧
      decide (0x34#8 = s.w) = true ∧ slotAt s (s.pc + 1#11) = .ok .nop ∧ 2048 ≤ s.pc.toNat + 1 + Instr.nop.words) := by
  simp only [Holds, IsPclatl, PlainRam]
  refine ⟨⟨_, rfl, ?_⟩, ⟨_, rfl, ?_⟩⟩ <;> decide

/-- The hypotheses of JumpNopAndPowerResults, at both ends of n. -/
theorem witness_JumpNopAndPowerResults : (0 : Nat) < 2048 ∧ (2047 : Nat) < 2048 ∧ base.pc ≠ 0x7FF#11 := by decide

/-- The hypotheses of NopOnlyMovesPc, MvlLoadsTheConstant and JmpGoesToItsOperand, clause by clause. -/
theorem witness_StatedRules :
    base.pc ≠ 0x7FF#11 ∧ ({ base with pc := 0x7FF } : State).pc = 0x7FF#11 ∧ (0 : Nat) < 256 ∧ (255 : Nat) < 256 ∧
    (0 : Nat) < 2048 ∧ (2047 : Nat) < 2048 := by decide

/-- The hypotheses of CallResults, one state for each clause, at its boundary: the highest pc and the last free slot, the same pc
on a full stack, and the lowest pc with no next address. -/
theorem witness_CallResults :
    (0x7FD + 2 < 2048 ∧ ({ base with pc := 0x7FD, stack := [1, 2, 3] } : State).sp < base.cfg.stackDepth) ∧
    (0x7FD + 2 < 2048 ∧ base.cfg.stackDepth ≤ ({ base with pc := 0x7FD, stack := [1, 2, 3, 4] } : State).sp) ∧
    2048 ≤ 0x7FE + 2 := by decide

/-- The hypotheses of ReturnResults, with interrupts modelled and not. -/
theorem witness_ReturnResults :
    base.stack = 0x123 :: [] ∧ (255 : Nat) < 256 ∧ base.cfg.interruptsModelled = true ∧
    ({ base with cfg := { base.cfg with interruptsModelled := false } } : State).cfg.interruptsModelled = false := by decide

/-- The hypotheses of ReturnOnEmptyStackResets. -/
theorem witness_ReturnOnEmptyStackResets :
    let s : State := { base with stack := [] }
    (255 : Nat) < 256 ∧ s.stack = [] ∧ s.cfg.interruptsModelled = true := by decide

/-- The hypotheses of OperandRefusals, clause by clause. -/
theorem witness_OperandRefusals :
    (Instr.setf 0x80 1).operandA = 1 ∧ (Instr.call 0x40 1).operandS = 1 ∧
    ((Instr.mvl 256).operandA ≠ 1 ∧ (Instr.mvl 256).operandS ≠ 1 ∧ (Instr.mvl 256).wellFormed = false) := by decide

/-- The hypotheses of DataAddressRefusals: Status bound to 003H, and 06FH, the address just below RAM_SET. -/
theorem witness_DataAddressRefusals :
    ((Instr.bsf 3 7 0).admitted = true ∧ fileOperand (.bsf 3 7 0) = some 3 ∧ base.pc ≠ 0x7FF#11 ∧ (3 : Nat) ≠ 0x2C ∧
      base.cfg.addrPclatl ≠ some 3 ∧ ({ base.cfg with addrStatus := some 3 } : Config).isFlagReg 3 = true) ∧
    ((Instr.clrf 0x6F 0).admitted = true ∧ fileOperand (.clrf 0x6F 0) = some 0x6F ∧ (0x6F : Nat) ≠ 0x2C ∧
      base.cfg.addrPclatl ≠ some 0x6F ∧ base.cfg.isFlagReg 0x6F = false ∧ base.cfg.inRam 0x6F = false) := by decide

/-- The hypotheses of UnwrittenRamReadFaults. -/
theorem witness_UnwrittenRamReadFaults :
    (Instr.mvf 0x71 0 0).admitted = true ∧ fileOperand (.mvf 0x71 0 0) = some 0x71 ∧ readsFile (.mvf 0x71 0 0) = true ∧
    base.pc ≠ 0x7FF#11 ∧ PlainRam base.cfg 0x71 ∧ Memory.read base.ram 0x71 = none := by
  simp only [PlainRam]; decide

/-- The hypotheses of PcNeverWraps, for one word and for two. -/
theorem witness_PcNeverWraps :
    ((Instr.nop).admitted = true ∧ usesNext .nop = true ∧ 2048 ≤ 0x7FF + Instr.nop.words) ∧
    ((Instr.call 0 0).admitted = true ∧ usesNext (.call 0 0) = true ∧ 2048 ≤ 0x7FE + (Instr.call 0 0).words) := by decide

/-- The hypotheses of SixteenBitAddition and SixteenBitSubtraction: x = 5634H taken from y = 5634H, at 070H and 0FFH. -/
theorem witness_SixteenBit :
    let s : State := { base with w := 0x34, pc := 0x7FD }
    (0x70 : Nat) < 256 ∧ (0xFF : Nat) < 256 ∧ (0x70 : Nat) ≠ 0xFF ∧ PlainRam s.cfg 0x70 ∧ PlainRam s.cfg 0xFF ∧
    s.pc.toNat + 2 < 2048 ∧ s.w = lowByte 0x5634 ∧
    Memory.read s.ram 0x70 = some (lowByte 0x5634) ∧ Memory.read s.ram 0xFF = some (highByte 0x5634) := by
  simp only [PlainRam]; decide

/-- The hypotheses of RotatesRestore, at the highest pc they allow. -/
theorem witness_RotatesRestore :
    let s : State := { base with pc := 0x7F6 }
    (0x70 : Nat) < 256 ∧ PlainRam s.cfg 0x70 ∧ Memory.read s.ram 0x70 = some 0x34 ∧ s.pc.toNat + 9 < 2048 := by
  simp only [PlainRam]; decide

/-- The hypotheses of ExactlyOneCompareSkips. -/
theorem witness_ExactlyOneCompareSkips :
    (0x70 : Nat) < 256 ∧ (7 : Nat) < 8 ∧ Holds base 0x70 0x34 ∧ slotAt base (base.pc + 1#11) = .ok .nop ∧
    base.pc.toNat + 1 + Instr.nop.words < 2048 := by
  simp only [Holds, IsPclatl, PlainRam]; decide

/-- The hypotheses of TableLookupReturnsTheEntry: an offset of 0EH, the last entry of the page. -/
theorem witness_TableLookupReturnsTheEntry :
    let s : State := { base with w := 0x0E }
    (0x0A : Nat) < 256 ∧ (255 : Nat) < 256 ∧ IsPclatl s.cfg 0x0A ∧ s.stack = 0x123 :: [] ∧ s.pc.toNat + 1 < 2048 ∧
    (s.pc.toNat + 1) % 256 + s.w.toNat < 256 := by
  simp only [IsPclatl]; decide

/-- The hypotheses of ReturnFollowsCall. -/
theorem witness_ReturnFollowsCall :
    let s : State := { base with pc := 0x7FD }
    (2047 : Nat) < 2048 ∧ s.pc.toNat + 2 < 2048 ∧ s.sp < s.cfg.stackDepth := by decide

/-- The hypotheses of DecodeOfEncodeIsTheInstruction. -/
theorem witness_DecodeOfEncode : (Instr.call 2047 1).wellFormed = true ∧ (Instr.btsz 255 7 1).wellFormed = true := by decide

/-- The hypotheses of EncodeOfDecodeIsTheWords. -/
theorem witness_EncodeOfDecode : decode [0xD1FF, 0xF007, 0x1234] = .ok (.call 0x7FF 1, [0x1234]) := by decide

/-- The hypotheses of ReservedWordIsBadFetch, at the ends of each range of rule R106. -/
theorem witness_ReservedWord (w : IWord) (h : w ∈ [0x0004#16, 0x000F, 0x0014, 0x0FFF, 0x1700, 0x1FFF, 0x2C00, 0x2FFF, 0xD200,
    0xDFFF, 0xE100, 0xEFFF, 0xF000, 0xFFFF]) :
    let s : State := { base with prog := [(0xF0, w)] }
    Stepped s ∧ s.run = .running ∧ s.gie = false ∧ progWord s s.pc.toNat = some w ∧ reservedWord w.toNat := by
  simp only [List.mem_cons, List.not_mem_nil, or_false] at h
  rcases h with rfl | rfl | rfl | rfl | rfl | rfl | rfl | rfl | rfl | rfl | rfl | rfl | rfl | rfl <;>
    (simp only [Stepped, reservedWord]; decide)

/-- The hypotheses of SecondWordIsChecked, at the ends of both ranges, with a second word that is right and one that is not. -/
theorem witness_SecondWord :
    (0xD000#16).toNat / 512 = 0x68 ∧ (0xD1FF#16).toNat / 512 = 0x68 ∧ (0xE000#16).toNat / 256 = 0xE0 ∧
    (0xE0FF#16).toNat / 256 = 0xE0 ∧ 0xF007#16 &&& 0xFFF8 = 0xF000 ∧ 0xF008#16 &&& 0xFFF8 ≠ 0xF000 := by decide

/-- The hypotheses of StepExecutesTheDecodedInstruction, with GIE = 0 and with GIE = 1 and no request. -/
theorem witness_StepDecoded :
    Stepped base ∧ base.run = .running ∧ ¬ Requested base ∧ slotAt base base.pc = .ok .nop ∧
    ¬ Requested { base with gie := true, inputs := [⟨false, true⟩] } := by
  refine ⟨by simp only [Stepped]; decide, rfl, ?_, by decide, ?_⟩ <;> simp [Requested, base, State.reset, State.resetWith]

/-- The hypotheses of StepExecutesTheEncodedInstruction, for the two-word JMP in the last two words of the program space. -/
theorem witness_StepEncoded :
    let s : State := { base with pc := 0x7FE, prog := [(0x7FE, 0xE0FF), (0x7FF, 0xF007)] }
    Stepped s ∧ s.run = .running ∧ s.gie = false ∧ (Instr.jmp 0x7FF).wellFormed = true ∧
    s.pc.toNat + (Instr.jmp 0x7FF).words ≤ 2048 ∧
    ∀ n (w : IWord), (encode (.jmp 0x7FF))[n]? = some w → Memory.read s.prog (s.pc.toNat + n) = some w := by
  intro s
  refine ⟨by simp only [Stepped]; decide, rfl, rfl, by decide, by decide, ?_⟩
  intro n w h
  match n with
  | 0 => exact h
  | 1 => exact h
  | _ + 2 => cases h

/-- The hypotheses of EmptySlotIsBadFetch: no word, and the second word of a JMP. -/
theorem witness_EmptySlot :
    Stepped State.reset ∧ ¬ Requested State.reset ∧ slotAt State.reset State.reset.pc = .error .emptySlot ∧
    slotAt { base with pc := 0x0F3 } 0x0F3 = .error (.reserved 0xF001) := by
  refine ⟨by simp only [Stepped]; decide, ?_, by decide, by decide⟩; simp [Requested, State.reset, State.resetWith]

/-- An interrupt requested and enabled. -/
def requested : State := { base with gie := true, inputs := [⟨true, false⟩] }

/-- The hypotheses of InterruptEntryPushesPcAndClearsGie and RetiUndoesInterruptEntry, with room on the stack and on a full
stack. -/
theorem witness_InterruptEntry :
    Stepped requested ∧ requested.run = .running ∧ Requested requested ∧ requested.sp < requested.cfg.stackDepth ∧
    Requested { requested with stack := [1, 2, 3, 4] } ∧
    requested.cfg.stackDepth ≤ ({ requested with stack := [1, 2, 3, 4] } : State).sp := by
  refine ⟨by simp only [Stepped]; decide, rfl, ⟨rfl, rfl, _, _, rfl, rfl⟩, by decide, ⟨rfl, rfl, _, _, rfl, rfl⟩, by decide⟩

/-- The hypotheses of NoInterruptWithGieClear. -/
theorem witness_NoInterrupt : Stepped base ∧ base.gie = false ∧ base.run = .running := by simp only [Stepped]; decide

/-- The hypotheses of HaltedStepOnlyWakes, clause by clause, in Idle and in Sleep. -/
theorem witness_HaltedStep (r : RunState) (h : r = .idle ∨ r = .sleep) :
    let s : State := { base with run := r }
    (Stepped s ∧ s.run ≠ .running ∧ s.cfg.wakeModelled = true ∧ s.inputs = []) ∧
    (Stepped { s with inputs := [⟨true, true⟩] } ∧ ({ s with inputs := [⟨true, true⟩] } : State).inputs = ⟨true, true⟩ :: []) ∧
    (Stepped { s with inputs := [⟨true, false⟩] } ∧
      ({ s with inputs := [⟨true, false⟩] } : State).inputs = ⟨true, false⟩ :: []) ∧
    (Stepped { s with cfg := { s.cfg with wakeModelled := false } } ∧
      ({ s.cfg with wakeModelled := false } : Config).wakeModelled = false) := by
  rcases h with rfl | rfl <;> (simp only [Stepped]; decide)

/-- The hypotheses of FinalStateStays. -/
theorem witness_FinalState :
    let s : State := { base with run := .sleep, cfg := { base.cfg with wakeModelled := false } }
    s.final = true ∧ s.cfg.wdtEnabled = false := by decide

/-- The hypotheses of MarksEndTheRun, clause by clause. -/
theorem witness_Marks :
    ({ base with refused := some .operandS } : State).refused = some .operandS ∧
    (∃ s : State, s = { base with fault := some (.badFetch 5) } ∧ s.refused = none ∧ s.fault = some (.badFetch 5)) ∧
    (∃ s : State, s = { base with cfg := { base.cfg with wdtEnabled := true } } ∧ s.refused = none ∧ s.fault = none ∧
      s.cfg.wdtEnabled = true) :=
  ⟨rfl, ⟨_, rfl, rfl, rfl⟩, ⟨_, rfl, rfl, rfl, rfl⟩⟩

/-- `base` at an empty slot, with a request dropped at this boundary. -/
def atEmptySlot : State := { base with pc := 0x0E0, inputs := [⟨true, false⟩] }

/-- `base` at a RET, with no return address. -/
def atUnderflow : State := { base with stack := [], prog := [(0xF0, 0x0010)] }

/-- `base` at ADDF 80H, 0, 1. -/
def atOperandA : State := { base with prog := [(0xF0, 0x4580)] }

/-- The hypotheses of StopsAreRecorded, clause by clause: a fault that takes a draw, a stack underflow and a refusal. -/
theorem witness_Stops :
    step atEmptySlot = .fault (.raised (.badFetch 0x0E0) { atEmptySlot with inputs := [], fault := some (.badFetch 0x0E0) }) ∧
    step atUnderflow = .fault (.raised (.stackUnderflowReset 0x0F0)
      { atUnderflow with stkun := true, skerr := true, fault := some (.stackUnderflowReset 0x0F0) }) ∧
    step atOperandA = .refused (.raised .operandA { atOperandA with refused := some .operandA }) := ⟨rfl, rfl, rfl⟩

/-- `base` has the invariant, and so have the states of the witnesses below. -/
theorem witness_Inv : base.Inv where
  config := by decide
  ramForm := by decide
  ramPlace := by decide
  progForm := by decide
  progPlace := by decide
  stackFits := by decide
  wdtFits := by decide
  gieOff := by decide
  underflowEnds := by intro h; cases h

/-- The hypotheses of StepKeepsTheInvariant and StepKeepsProgramAndConfiguration. -/
theorem witness_StepKeeps : base.Inv ∧ step base = .next { base with pc := 0x0F1 } := ⟨witness_Inv, rfl⟩

/-- The states of `witness_Stops` have the invariant: the hypotheses of StopsKeepTheInvariant. -/
theorem witness_StopsKeep : atUnderflow.Inv ∧ atOperandA.Inv := by
  constructor <;> exact ⟨by decide, by decide, by decide, by decide, by decide, by decide, by decide, by decide, by intro h; cases h⟩

/-- The hypothesis of ResetHasTheInvariant. -/
theorem witness_ResetHasTheInvariant : Config.standard.wellFormed = true := by decide

/-- The hypotheses of CarryWritersAndReaders: MVL neither writes nor reads C; ADDL writes it and does not read it. -/
theorem witness_Carry :
    (exec (.mvl 7) base = .next { base with w := 7, pc := 0x0F1 } ∧ writesC (.mvl 7) = false ∧ readsC (.mvl 7) = false) ∧
    (exec (.addl 7) base = .next { base with w := 0x19, c := false, pc := 0x0F1 } ∧ readsC (.addl 7) = false) :=
  ⟨⟨rfl, rfl, rfl⟩, rfl, rfl⟩

/-- The hypotheses of ZeroWriters: a next state of an instruction that does not write Z. -/
theorem witness_ZeroWriters :
    exec (.clrf 0x70 0) base = .next { base with ram := [(0x70, 0x00), (0xFF, 0x56)], pc := 0x0F1 } ∧
    writesZ (.clrf 0x70 0) = false := ⟨rfl, rfl⟩

/-- The hypotheses of OnlyRetiWritesGie and StackWriters, and of StackErrorWriters's clause about a next state: RETI, CALL and
another. -/
theorem witness_StackWriters :
    exec (.reti 0) base = .next { base with stack := [], pc := 0x123, gie := true } ∧
    exec (.call 5 0) base = .next { base with stack := [0x0F2, 0x123], pc := 0x005 } ∧
    exec .nop base = .next { base with pc := 0x0F1 } := ⟨rfl, rfl, rfl⟩

/-- The hypotheses of the other clauses of StackErrorWriters: a stack underflow, another fault and a refusal. -/
theorem witness_StackErrorWriters :
    exec (.retl 5) atUnderflow = .fault (.raised (.stackUnderflowReset 0x0F0)
      { atUnderflow with stkun := true, skerr := true, fault := some (.stackUnderflowReset 0x0F0) }) ∧
    exec (.inf 0x71 1 0) base =
      .fault (.raised (.uninitialisedRead 0x71) { base with fault := some (.uninitialisedRead 0x71) }) ∧
    exec (.ret 1) base = .refused (.raised .operandS { base with refused := some .operandS }) := ⟨rfl, rfl, rfl⟩

/-- The hypotheses of PstatusAndRunStateWriters, for an instruction that is none of the three. -/
theorem witness_PstatusWriters :
    exec .nop base = .next { base with pc := 0x0F1 } ∧ Instr.nop ≠ .cwdt ∧ Instr.nop ≠ .idle ∧ Instr.nop ≠ .slp :=
  ⟨rfl, by decide, by decide, by decide⟩

/-- The hypotheses of RamFrame for an instruction that writes f, at the address next to it, and of WregFrame for the same. -/
theorem witness_Frames :
    exec (.mvf 0x70 1 0) base = .next { base with ram := [(0x70, 0x12), (0xFF, 0x56)], pc := 0x0F1 } ∧
    (writesFile (.mvf 0x70 1 0) = true → fileOperand (.mvf 0x70 1 0) ≠ some 0xFF) ∧ writesW (.mvf 0x70 1 0) = false ∧
    (writesFile (.mvf 0x70 1 0) = true → fileOperand (.mvf 0x70 1 0) ≠ some 0x2C) := ⟨rfl, by decide, rfl, by decide⟩

/-- The hypothesis of NothingReadsZOrPstatus, met by two different states. -/
theorem witness_NothingReads :
    unread base = unread { base with z := true, pd := true, wdt := 3 } ∧ base ≠ { base with z := true, pd := true, wdt := 3 } := by
  decide

/-- The hypotheses of GreaterStackDepthIsTheSameRun, with a run of two steps. -/
theorem witness_GreaterStackDepth :
    base.cfg.stackDepth ≤ 9 ∧ Host.Core.run Sys2Proof.core 2 base = .next { base with pc := 0x0F2 } := ⟨by decide, rfl⟩

end Sys2Proof.Tests
end

section
/-! The instructions by the template of the spec they are written over: one table for each template, and the case
distinction every later proof makes. The nine instructions over no template are cases of their own. -/

namespace Sys2Proof.Proofs

open Sys2Proof.Machine Sys2Proof.Statement

/-- The instructions over execFda (rule R130), each with its function of the register, W and C. -/
inductive FdaInstr : (Nat → Nat → Nat → Instr) → (Byte → Byte → Bool → AluResult) → Prop where
  | addc : FdaInstr .addc fun fv wv cv => addResult fv wv cv
  | addf : FdaInstr .addf fun fv wv _ => addResult fv wv false
  | andf : FdaInstr .andf fun fv wv _ => logicResult (wv &&& fv)
  | comf : FdaInstr .comf fun fv _ _ => logicResult (~~~fv)
  | dcf : FdaInstr .dcf fun fv _ _ => addResult fv 0xFF false
  | inf : FdaInstr .inf fun fv _ _ => addResult fv 1 false
  | iorf : FdaInstr .iorf fun fv wv _ => logicResult (wv ||| fv)
  | subc : FdaInstr .subc fun fv wv cv => subResult fv wv cv
  | subf : FdaInstr .subf fun fv wv _ => subResult fv wv true
  | xorf : FdaInstr .xorf fun fv wv _ => logicResult (wv ^^^ fv)
  | swpf : FdaInstr .swpf fun fv _ _ => swapNibbles fv
  | rlf : FdaInstr .rlf fun fv _ _ => rotateLeft fv
  | rlfc : FdaInstr .rlfc fun fv _ cv => rotateLeftCarry fv cv
  | rrf : FdaInstr .rrf fun fv _ _ => rotateRight fv
  | rrfc : FdaInstr .rrfc fun fv _ cv => rotateRightCarry fv cv

/-- The instructions over execLiteral (rule R150), each with its function of k and W. -/
inductive LiteralInstr : (Nat → Instr) → (Byte → Byte → AluResult) → Prop where
  | addl : LiteralInstr .addl fun kv wv => addResult wv kv false
  | andl : LiteralInstr .andl fun kv wv => logicResult (wv &&& kv)
  | iorl : LiteralInstr .iorl fun kv wv => logicResult (wv ||| kv)
  | mvl : LiteralInstr .mvl fun kv _ => plainResult kv
  | subl : LiteralInstr .subl fun kv wv => subResult kv wv true
  | xorl : LiteralInstr .xorl fun kv wv => logicResult (wv ^^^ kv)

/-- The instructions over execTest (rules R181 to R183, R188, R234 and R235), each with its test, which may look at
CMP_SIGNED, and its operand ranges. -/
inductive TestInstr : (Nat → Nat → Instr) → (Config → Byte → Byte → Bool) → (Nat → Nat → Bool) → Prop where
  | cpse : TestInstr .cpse (fun _ fv wv => decide (fv = wv)) inRangeFa
  | cpsg : TestInstr .cpsg byteGreater inRangeFa
  | cpsl : TestInstr .cpsl byteLess inRangeFa
  | tfsz : TestInstr .tfsz (fun _ fv _ => decide (fv = 0)) inRangeFa
  | btss (b : Nat) : TestInstr (fun f a => .btss f b a) (fun _ fv _ => fv.getLsbD b) (fun f a => inRangeFba f b a)
  | btsz (b : Nat) : TestInstr (fun f a => .btsz f b a) (fun _ fv _ => !fv.getLsbD b) (fun f a => inRangeFba f b a)

/-- The instructions over execCount (rules R184 to R187). -/
inductive CountInstr : (Nat → Nat → Nat → Instr) → Byte → (Byte → Bool) → Prop where
  | dcsuz : CountInstr .dcsuz 0xFF fun r => decide (r ≠ 0)
  | dcsz : CountInstr .dcsz 0xFF fun r => decide (r = 0)
  | insuz : CountInstr .insuz 0x01 fun r => decide (r ≠ 0)
  | insz : CountInstr .insz 0x01 fun r => decide (r = 0)

/-- The instructions over execBit (rule R230), with the operand b in the place the template gives it. -/
inductive BitInstr : (Nat → Nat → Nat → Instr) → (Nat → Byte → Byte) → Prop where
  | bcf : BitInstr .bcf fun b fv => fv &&& ~~~(bitMask b)
  | bsf : BitInstr .bsf fun b fv => fv ||| bitMask b
  | btgf : BitInstr .btgf fun b fv => fv ^^^ bitMask b

/-- The instructions over execFill (rule R160). -/
inductive FillInstr : (Nat → Nat → Instr) → Byte → Prop where
  | clrf : FillInstr .clrf 0x00
  | setf : FillInstr .setf 0xFF

/-- Every instruction is over one of the templates or one of the ten others. -/
theorem instr_byTemplate {motive : Instr → Prop}
    (fda : ∀ {mk op}, FdaInstr mk op → ∀ f d a, motive (mk f d a))
    (literal : ∀ {mk op}, LiteralInstr mk op → ∀ k, motive (mk k))
    (test : ∀ {mk cond ok}, TestInstr mk cond ok → ∀ f a, motive (mk f a))
    (count : ∀ {mk delta cond}, CountInstr mk delta cond → ∀ f d a, motive (mk f d a))
    (bit : ∀ {mk op}, BitInstr mk op → ∀ f b a, motive (mk f b a))
    (fill : ∀ {mk v}, FillInstr mk v → ∀ f a, motive (mk f a))
    (mvf : ∀ f d a, motive (.mvf f d a))
    (nop : motive .nop) (cwdt : motive .cwdt) (idle : motive .idle) (slp : motive .slp)
    (ret : ∀ sOp, motive (.ret sOp)) (reti : ∀ sOp, motive (.reti sOp)) (retl : ∀ k, motive (.retl k))
    (call : ∀ n sOp, motive (.call n sOp)) (jmp : ∀ n, motive (.jmp n)) (i : Instr) : motive i := by
  cases i with
  | nop => exact nop
  | cwdt => exact cwdt
  | idle => exact idle
  | slp => exact slp
  | ret sOp => exact ret sOp
  | reti sOp => exact reti sOp
  | retl k => exact retl k
  | call n sOp => exact call n sOp
  | jmp n => exact jmp n
  | mvf f d a => exact mvf f d a
  | addl k => exact literal .addl k
  | andl k => exact literal .andl k
  | iorl k => exact literal .iorl k
  | mvl k => exact literal .mvl k
  | subl k => exact literal .subl k
  | xorl k => exact literal .xorl k
  | clrf f a => exact fill .clrf f a
  | setf f a => exact fill .setf f a
  | cpse f a => exact test .cpse f a
  | cpsg f a => exact test .cpsg f a
  | cpsl f a => exact test .cpsl f a
  | tfsz f a => exact test .tfsz f a
  | btss f b a => exact test (.btss b) f a
  | btsz f b a => exact test (.btsz b) f a
  | bcf f b a => exact bit .bcf f b a
  | bsf f b a => exact bit .bsf f b a
  | btgf f b a => exact bit .btgf f b a
  | dcsuz f d a => exact count .dcsuz f d a
  | dcsz f d a => exact count .dcsz f d a
  | insuz f d a => exact count .insuz f d a
  | insz f d a => exact count .insz f d a
  | addc f d a => exact fda .addc f d a
  | addf f d a => exact fda .addf f d a
  | andf f d a => exact fda .andf f d a
  | comf f d a => exact fda .comf f d a
  | dcf f d a => exact fda .dcf f d a
  | inf f d a => exact fda .inf f d a
  | iorf f d a => exact fda .iorf f d a
  | subc f d a => exact fda .subc f d a
  | subf f d a => exact fda .subf f d a
  | xorf f d a => exact fda .xorf f d a
  | swpf f d a => exact fda .swpf f d a
  | rlf f d a => exact fda .rlf f d a
  | rlfc f d a => exact fda .rlfc f d a
  | rrf f d a => exact fda .rrf f d a
  | rrfc f d a => exact fda .rrfc f d a

/-! ### What the tables say of exec -/

section
variable {mk₁ : Nat → Instr} {mk₂ : Nat → Nat → Instr} {mk₃ : Nat → Nat → Nat → Instr}

theorem FdaInstr.exec_eq {op} (h : FdaInstr mk₃ op) (f d a : Nat) (s : State) :
    exec (mk₃ f d a) s = execFda op f d a s := by cases h <;> rfl

theorem LiteralInstr.exec_eq {op} (h : LiteralInstr mk₁ op) (k : Nat) (s : State) :
    exec (mk₁ k) s = execLiteral op k s := by cases h <;> rfl

theorem TestInstr.exec_eq {cond ok} (h : TestInstr mk₂ cond ok) (f a : Nat) (s : State) :
    exec (mk₂ f a) s = execTest (cond s.cfg) f a (ok f a) s := by cases h <;> rfl

theorem CountInstr.exec_eq {delta cond} (h : CountInstr mk₃ delta cond) (f d a : Nat) (s : State) :
    exec (mk₃ f d a) s = execCount delta cond f d a s := by cases h <;> rfl

theorem BitInstr.exec_eq {op} (h : BitInstr mk₃ op) (f b a : Nat) (s : State) :
    exec (mk₃ f b a) s = execBit (op b) f b a s := by cases h <;> rfl

theorem FillInstr.exec_eq {v} (h : FillInstr mk₂ v) (f a : Nat) (s : State) :
    exec (mk₂ f a) s = execFill v f a s := by cases h <;> rfl

end

/-! ### What the tables say of the operand f, the destination and the flags -/

/-- The lists of the spec an instruction with the operand f stands in: whether it reads f, writes f and
writes W, and that it is one word long and does nothing to the stack. -/
structure FileInstr (i : Instr) (f : Nat) (reads writes toW : Bool) : Prop where
  operand : fileOperand i = some f
  readsFile : readsFile i = reads
  writesFile : writesFile i = writes
  writesW : writesW i = toW
  words : i.words = 1
  isCall : isCall i = false
  isReturn : isReturn i = false

section
variable {mk₁ : Nat → Instr} {mk₂ : Nat → Nat → Instr} {mk₃ : Nat → Nat → Nat → Instr}

theorem FdaInstr.file {op} (h : FdaInstr mk₃ op) (f d a : Nat) :
    FileInstr (mk₃ f d a) f true (d == 1) (d == 0) := by cases h <;> exact ⟨rfl, rfl, rfl, rfl, rfl, rfl, rfl⟩

theorem TestInstr.file {cond ok} (h : TestInstr mk₂ cond ok) (f a : Nat) :
    FileInstr (mk₂ f a) f true false false := by cases h <;> exact ⟨rfl, rfl, rfl, rfl, rfl, rfl, rfl⟩

theorem CountInstr.file {delta cond} (h : CountInstr mk₃ delta cond) (f d a : Nat) :
    FileInstr (mk₃ f d a) f true (d == 1) (d == 0) := by cases h <;> exact ⟨rfl, rfl, rfl, rfl, rfl, rfl, rfl⟩

theorem BitInstr.file {op} (h : BitInstr mk₃ op) (f b a : Nat) :
    FileInstr (mk₃ f b a) f true true false := by cases h <;> exact ⟨rfl, rfl, rfl, rfl, rfl, rfl, rfl⟩

theorem FillInstr.file {v} (h : FillInstr mk₂ v) (f a : Nat) :
    FileInstr (mk₂ f a) f false true false := by cases h <;> exact ⟨rfl, rfl, rfl, rfl, rfl, rfl, rfl⟩

theorem mvf_file (f d a : Nat) : FileInstr (.mvf f d a) f (d == 0) (d == 1) (d == 0) :=
  ⟨rfl, rfl, rfl, rfl, rfl, rfl, rfl⟩

theorem LiteralInstr.lists {op} (h : LiteralInstr mk₁ op) (k : Nat) :
    writesW (mk₁ k) = true ∧ isCall (mk₁ k) = false ∧ isReturn (mk₁ k) = false := by
  cases h <;> exact ⟨rfl, rfl, rfl⟩

theorem LiteralInstr.words {op} (h : LiteralInstr mk₁ op) (k : Nat) : (mk₁ k).words = 1 := by cases h <;> rfl

theorem FdaInstr.admitted {op} (h : FdaInstr mk₃ op) (f d a : Nat) :
    (mk₃ f d a).admitted = (inRangeFda f d a && a == 0 && true) := by cases h <;> rfl

theorem TestInstr.admitted {cond ok} (h : TestInstr mk₂ cond ok) (f a : Nat) :
    (mk₂ f a).admitted = (ok f a && a == 0 && true) := by cases h <;> rfl

theorem CountInstr.admitted {delta cond} (h : CountInstr mk₃ delta cond) (f d a : Nat) :
    (mk₃ f d a).admitted = (inRangeFda f d a && a == 0 && true) := by cases h <;> rfl

theorem BitInstr.admitted {op} (h : BitInstr mk₃ op) (f b a : Nat) :
    (mk₃ f b a).admitted = (inRangeFba f b a && a == 0 && true) := by cases h <;> rfl

theorem FillInstr.admitted {v} (h : FillInstr mk₂ v) (f a : Nat) :
    (mk₂ f a).admitted = (inRangeFa f a && a == 0 && true) := by cases h <;> rfl

theorem LiteralInstr.admitted {op} (h : LiteralInstr mk₁ op) (k : Nat) :
    (mk₁ k).admitted = (inRangeK k && true && true) := by cases h <;> rfl

/-- The flags a result leaves to the state, by the lists of rules R30 and R31. -/
theorem FdaInstr.keepsC {op} (h : FdaInstr mk₃ op) {f d a : Nat} (hw : writesC (mk₃ f d a) = false)
    (x y : Byte) (b : Bool) : (op x y b).c = none := by
  cases h <;> cases hw <;> rfl

theorem FdaInstr.writes_c {op} (h : FdaInstr mk₃ op) {f d a : Nat} (hw : writesC (mk₃ f d a) = true)
    (x y : Byte) (b : Bool) : ∃ v, (op x y b).c = some v := by
  cases h <;> cases hw <;> exact ⟨_, rfl⟩

theorem FdaInstr.keepsZ {op} (h : FdaInstr mk₃ op) {f d a : Nat} (hw : writesZ (mk₃ f d a) = false)
    (x y : Byte) (b : Bool) : (op x y b).z = none := by
  cases h <;> cases hw
  rfl

theorem FdaInstr.ignoresC {op} (h : FdaInstr mk₃ op) {f d a : Nat} (hr : readsC (mk₃ f d a) = false)
    (x y : Byte) (b b' : Bool) : op x y b = op x y b' := by
  cases h <;> cases hr <;> rfl

theorem LiteralInstr.keepsC {op} (h : LiteralInstr mk₁ op) {k : Nat} (hw : writesC (mk₁ k) = false)
    (x y : Byte) : (op x y).c = none := by
  cases h <;> cases hw <;> rfl

theorem LiteralInstr.writes_c {op} (h : LiteralInstr mk₁ op) {k : Nat} (hw : writesC (mk₁ k) = true)
    (x y : Byte) : ∃ v, (op x y).c = some v := by
  cases h <;> cases hw <;> exact ⟨_, rfl⟩

theorem LiteralInstr.keepsZ {op} (h : LiteralInstr mk₁ op) {k : Nat} (hw : writesZ (mk₁ k) = false)
    (x y : Byte) : (op x y).z = none := by
  cases h <;> cases hw
  rfl

/-- CMP_SIGNED is all of the configuration that a test looks at. -/
theorem TestInstr.cond_congr {cond ok} (h : TestInstr mk₂ cond ok) {g g' : Config} (hg : g'.cmpSigned = g.cmpSigned)
    (x y : Byte) : cond g' x y = cond g x y := by
  cases h <;> simp only [byteGreater, byteLess, hg]

end

end Sys2Proof.Proofs
end

section
/-! What an instruction can do when it answers a next state, said once: every frame statement and the invariant are read off
from it. -/

namespace Sys2Proof.Proofs

open Sys2Proof.Machine Sys2Proof.Statement

/-- The state t is s with at most W, the register f and pc changed, W only where `toW` or f is WREG,
the register only where it is RAM and `toF`. -/
def Stores (s : State) (f : Nat) (toF toW : Bool) (t : State) : Prop :=
  ∃ w ram p, t = { s with w := w, ram := ram, pc := p } ∧
    (toW = false → (toF = true → f ≠ 0x2C) → w = s.w) ∧
    (ram = s.ram ∨ ∃ v, toF = true ∧ dataClass s.cfg f = .ram ∧ ram = Memory.write s.ram f v)

theorem stores_setPc {s : State} {f : Nat} {toF toW : Bool} (p : PAddr) : Stores s f toF toW (s.setPc p) :=
  ⟨s.w, s.ram, p, rfl, fun _ _ => rfl, .inl rfl⟩

theorem stores_setW {s : State} {f : Nat} {toF : Bool} (p : PAddr) (v : Byte) :
    Stores s f toF true { s with w := v, pc := p } :=
  ⟨v, s.ram, p, rfl, nofun, .inl rfl⟩

theorem stores_of_memWrite {s t : State} {nxt p : PAddr} {f : Nat} {v : Byte} {toW : Bool}
    (h : memWrite s nxt p f v = .next t) : Stores s f true toW t := by
  rcases memWrite_eq_next.mp h with ⟨hf, rfl⟩ | ⟨-, rfl⟩ | ⟨hf, rfl⟩
  · exact ⟨v, s.ram, p, rfl, fun _ h2C => absurd (dataClass_wreg_iff.mp hf) (h2C rfl), .inl rfl⟩
  · exact stores_setPc _
  · exact ⟨s.w, _, p, rfl, fun _ _ => rfl, .inr ⟨v, rfl, hf, rfl⟩⟩

theorem stores_of_writeDest {s t : State} {nxt p : PAddr} {f d : Nat} {v : Byte} (hd : d < 2)
    (h : writeDest s nxt p f d v = .next t) : Stores s f (d == 1) (d == 0) t := by
  rcases writeDest_eq_next.mp h with ⟨rfl, rfl⟩ | ⟨h0, h⟩
  · exact stores_setW p v
  · obtain rfl : d = 1 := by omega
    exact stores_of_memWrite h

theorem lt_two_of_inRangeFda {f d a : Nat} (h : inRangeFda f d a = true) : d < 2 := by
  simp only [inRangeFda, Bool.and_eq_true, decide_eq_true_eq] at h
  exact h.1.2

/-- What an instruction that answers a next state does to the state. -/
inductive Effect (s : State) : Instr → State → Prop where
  | data {i : Instr} (w : Byte) (ram : List Host.Cell) (c z : Bool) (p : PAddr)
      (hw : writesW i = false → (writesFile i = true → fileOperand i ≠ some 0x2C) → w = s.w)
      (hram : ram = s.ram ∨ ∃ f v, writesFile i = true ∧ fileOperand i = some f ∧ dataClass s.cfg f = .ram ∧
        ram = Memory.write s.ram f v)
      (hc : writesC i = false → c = s.c) (hz : writesZ i = false → z = s.z)
      (hcall : isCall i = false) (hret : isReturn i = false) :
      Effect s i { s with w := w, ram := ram, c := c, z := z, pc := p }
  | cwdt (p : PAddr) : Effect s .cwdt { s with wdt := 0, toFlag := false, pc := p }
  | idle (p : PAddr) : Effect s .idle { s with idleb := true, pc := p, run := .idle }
  | slp (p : PAddr) : Effect s .slp { s with pd := true, pc := p, run := .sleep }
  | call (n sOp : Nat) (p : PAddr) (room : s.sp < s.cfg.stackDepth) :
      Effect s (.call n sOp) { s with stack := (s.pc + 2#11) :: s.stack, pc := p }
  | ret (sOp : Nat) {p : PAddr} {rest : List PAddr} (hs : s.stack = p :: rest) :
      Effect s (.ret sOp) { s with stack := rest, pc := p }
  | reti (sOp : Nat) {p : PAddr} {rest : List PAddr} (hs : s.stack = p :: rest)
      (modelled : s.cfg.interruptsModelled = true) :
      Effect s (.reti sOp) { s with stack := rest, pc := p, gie := true }
  | retl (k : Nat) {p : PAddr} {rest : List PAddr} (hs : s.stack = p :: rest) :
      Effect s (.retl k) { s with stack := rest, pc := p, w := BitVec.ofNat 8 k }

/-- The effect of an instruction that stores a result and then writes the flags of it. -/
theorem Stores.effect_writeFlags {i : Instr} {s u : State} {f : Nat} {reads toF toW : Bool} (r : AluResult)
    (hi : FileInstr i f reads toF toW) (hu : Stores s f toF toW u)
    (hc : writesC i = false → r.c = none) (hz : writesZ i = false → r.z = none) : Effect s i (u.writeFlags r) := by
  obtain ⟨w, ram, p, rfl, hw, hram⟩ := hu
  refine .data w ram _ _ p ?_ ?_ (fun h => by simp [hc h]) (fun h => by simp [hz h]) hi.isCall hi.isReturn
  · simpa [hi.operand, hi.writesFile, hi.writesW] using hw
  · simpa [hi.operand, hi.writesFile] using hram

/-- The effect of an instruction that stores a result and writes no flag. -/
theorem Stores.effect {i : Instr} {s t : State} {f : Nat} {reads toF toW : Bool}
    (hi : FileInstr i f reads toF toW) (ht : Stores s f toF toW t) : Effect s i t :=
  ht.effect_writeFlags (plainResult 0) hi (fun _ => rfl) (fun _ => rfl)

/-- The effect of an instruction without an operand f that moves pc and does nothing else. -/
theorem effect_setPc {i : Instr} {s : State} (p : PAddr) (hcall : isCall i = false) (hret : isReturn i = false) :
    Effect s i (s.setPc p) :=
  .data s.w s.ram s.c s.z p (fun _ _ => rfl) (.inl rfl) (fun _ => rfl) (fun _ => rfl) hcall hret

/-- An instruction that answers a next state does one of these things and nothing else. -/
theorem exec_effect {i : Instr} {s t : State} (h : exec i s = .next t) : Effect s i t := by
  induction i using instr_byTemplate with
  | fda hi f d a =>
    rw [hi.exec_eq, execFda_eq_next] at h
    obtain ⟨-, hrange, -, fv, -, u, hu, rfl⟩ := h
    exact (stores_of_writeDest (lt_two_of_inRangeFda hrange) hu).effect_writeFlags _ (hi.file f d a)
      (fun hc => hi.keepsC hc _ _ _) (fun hz => hi.keepsZ hz _ _ _)
  | literal hi k =>
    rw [hi.exec_eq, execLiteral_eq_next] at h
    obtain ⟨-, -, rfl⟩ := h
    obtain ⟨toW, hcall, hret⟩ := hi.lists k
    exact .data _ s.ram _ _ (s.pc + 1#11) (by simp [toW]) (.inl rfl)
      (fun hc => by simp [hi.keepsC hc]) (fun hz => by simp [hi.keepsZ hz]) hcall hret
  | test hi f a =>
    rw [hi.exec_eq, execTest_eq_next] at h
    obtain ⟨-, -, -, fv, -, p, -, rfl⟩ := h
    exact (stores_setPc p).effect (hi.file f a)
  | count hi f d a =>
    rw [hi.exec_eq, execCount_eq_next] at h
    obtain ⟨-, hrange, -, fv, -, p, -, ht⟩ := h
    exact (stores_of_writeDest (lt_two_of_inRangeFda hrange) ht).effect (hi.file f d a)
  | bit hi f b a =>
    rw [hi.exec_eq, execBit_eq_next] at h
    obtain ⟨-, -, -, fv, -, ht⟩ := h
    exact (stores_of_memWrite ht).effect (hi.file f b a)
  | fill hi f a =>
    rw [hi.exec_eq, execFill_eq_next] at h
    obtain ⟨-, -, -, ht⟩ := h
    exact (stores_of_memWrite ht).effect (hi.file f a)
  | mvf f d a =>
    obtain ⟨-, hrange, -, h⟩ := execMvf_eq_next.mp h
    have hd := lt_two_of_inRangeFda hrange
    rcases h with ⟨rfl, fv, -, rfl⟩ | ⟨h0, ht⟩
    · exact (stores_setW _ fv).effect (mvf_file f 0 a)
    · obtain rfl : d = 1 := by omega
      exact (stores_of_memWrite ht).effect (mvf_file f 1 a)
  | nop =>
    obtain ⟨p, -, ht⟩ := andThen_eq_next.mp h
    cases ht
    exact effect_setPc p rfl rfl
  | cwdt =>
    obtain ⟨p, -, ht⟩ := andThen_eq_next.mp h
    cases ht
    exact .cwdt p
  | idle =>
    obtain ⟨p, -, ht⟩ := andThen_eq_next.mp h
    cases ht
    exact .idle p
  | slp =>
    obtain ⟨p, -, ht⟩ := andThen_eq_next.mp h
    cases ht
    exact .slp p
  | ret sOp =>
    obtain ⟨-, -, ht⟩ := andThen_eq_next.mp h
    obtain ⟨p, rest, hs, rfl⟩ := popReturn_eq_next.mp ht
    exact .ret sOp hs
  | reti sOp =>
    obtain ⟨-, -, ht⟩ := andThen_eq_next.mp h
    split at ht
    · obtain ⟨p, rest, hs, rfl⟩ := popReturn_eq_next.mp ht
      exact .reti sOp hs ‹_›
    · exact absurd ht refuse_ne_next
  | retl k =>
    obtain ⟨-, -, ht⟩ := andThen_eq_next.mp h
    obtain ⟨p, rest, hs, rfl⟩ := popReturn_eq_next.mp ht
    exact .retl k hs
  | call n sOp =>
    obtain ⟨-, -, h⟩ := andThen_eq_next.mp h
    obtain ⟨nxt, hnxt, h⟩ := andThen_eq_next.mp h
    obtain ⟨u, hu, ht⟩ := andThen_eq_next.mp h
    obtain ⟨-, rfl⟩ := nextAddr_eq_next.mp hnxt
    obtain ⟨room, rfl⟩ := push_eq_next.mp hu
    cases ht
    exact .call n sOp _ room
  | jmp n =>
    obtain ⟨-, -, ht⟩ := andThen_eq_next.mp h
    cases ht
    exact effect_setPc _ rfl rfl

/-! ### The frame statements, read off from the effect -/

theorem carry_of_not_writesC {i : Instr} {s t : State} (h : exec i s = .next t) (hc : writesC i = false) : t.c = s.c := by
  cases exec_effect h with
  | data w ram c z p _ _ keep => exact keep hc
  | _ => rfl

/-- Settles O23, by the cases of the effect. -/
theorem zeroWriters : Obligations.ZeroWriters := by
  intro i s t h hz
  cases exec_effect h with
  | data w ram c z p _ _ _ keep => exact keep hz
  | _ => rfl

/-- Settles O24, by the cases of the effect. -/
theorem onlyRetiWritesGie : Obligations.OnlyRetiWritesGie := by
  intro i s t h
  cases exec_effect h with
  | reti => exact .inr ⟨rfl, rfl⟩
  | _ => exact .inl rfl

/-- Settles O25, by the cases of the effect. -/
theorem pstatusAndRunStateWriters : Obligations.PstatusAndRunStateWriters := by
  intro i s t h
  cases exec_effect h <;> simp

/-- Settles O27, by the cases of the effect. -/
theorem stackWriters : Obligations.StackWriters := by
  intro i s t h
  cases exec_effect h with
  | data w ram c z p _ _ _ _ hcall hret => exact .inr (.inr ⟨hcall, hret, rfl⟩)
  | call => exact .inl ⟨rfl, rfl⟩
  | ret _ hs | reti _ hs | retl _ hs => exact .inr (.inl ⟨rfl, _, hs, rfl⟩)
  | cwdt | idle | slp => exact .inr (.inr ⟨rfl, rfl, rfl⟩)

/-- Settles O29, by the cases of the effect. -/
theorem wregFrame : Obligations.WregFrame := by
  intro i s t h hw hf
  cases exec_effect h with
  | data w ram c z p keep => exact keep hw hf
  | retl => exact absurd hw (by simp [writesW])
  | _ => rfl

/-- An instruction that answers a next state records no stop, and leaves program memory and the configuration. -/
theorem exec_next_keeps {i : Instr} {s t : State} (h : exec i s = .next t) :
    t.stkun = s.stkun ∧ t.skerr = s.skerr ∧ t.fault = s.fault ∧ t.refused = s.refused ∧ t.prog = s.prog ∧
      t.cfg = s.cfg := by
  cases exec_effect h <;> exact ⟨rfl, rfl, rfl, rfl, rfl, rfl⟩

end Sys2Proof.Proofs
end

section
/-! What a fault and a refusal of an instruction leave. -/

namespace Sys2Proof.Proofs

open Sys2Proof.Machine Sys2Proof.Statement

theorem andThen_eq_fault {α β : Type} {x : Res α} {k : α → Res β} {q : Fault} :
    andThen x k = .fault q ↔ x = .fault q ∨ ∃ v, x = .next v ∧ k v = .fault q := by
  cases x <;> simp

theorem andThen_eq_refused {α β : Type} {x : Res α} {k : α → Res β} {q : Refusal} :
    andThen x k = .refused q ↔ x = .refused q ∨ ∃ v, x = .next v ∧ k v = .refused q := by
  cases x <;> simp

theorem stopsAt_execFda (op : Byte → Byte → Bool → AluResult) (f d a : Nat) (s : State) :
    StopsAt s (execFda op f d a s) :=
  stopsAt_andThen (stopsAt_beginOne _ _ _ _) fun _ _ => stopsAt_andThen (stopsAt_memRead _ _ _) fun _ _ =>
    stopsAt_andThen (stopsAt_writeDest _ _ _ _ _ _) fun _ _ => stopsAt_next _ _

theorem stopsAt_execLiteral (op : Byte → Byte → AluResult) (k : Nat) (s : State) : StopsAt s (execLiteral op k s) :=
  stopsAt_andThen (stopsAt_beginOne _ _ _ _) fun _ _ => stopsAt_next _ _

theorem stopsAt_execTest (cond : Byte → Byte → Bool) (f a : Nat) (ok : Bool) (s : State) :
    StopsAt s (execTest cond f a ok s) :=
  stopsAt_andThen (stopsAt_beginOne _ _ _ _) fun _ _ => stopsAt_andThen (stopsAt_memRead _ _ _) fun _ _ =>
    stopsAt_andThen (stopsAt_skipIf _ _ _) fun _ _ => stopsAt_next _ _

theorem stopsAt_execCount (delta : Byte) (cond : Byte → Bool) (f d a : Nat) (s : State) :
    StopsAt s (execCount delta cond f d a s) :=
  stopsAt_andThen (stopsAt_beginOne _ _ _ _) fun _ _ => stopsAt_andThen (stopsAt_memRead _ _ _) fun _ _ =>
    stopsAt_andThen (stopsAt_skipIf _ _ _) fun _ _ => stopsAt_writeDest _ _ _ _ _ _

theorem stopsAt_execBit (op : Byte → Byte) (f b a : Nat) (s : State) : StopsAt s (execBit op f b a s) :=
  stopsAt_andThen (stopsAt_beginOne _ _ _ _) fun _ _ => stopsAt_andThen (stopsAt_memRead _ _ _) fun _ _ =>
    stopsAt_memWrite _ _ _ _ _

theorem stopsAt_execFill (v : Byte) (f a : Nat) (s : State) : StopsAt s (execFill v f a s) :=
  stopsAt_andThen (stopsAt_beginOne _ _ _ _) fun _ _ => stopsAt_memWrite _ _ _ _ _

theorem stopsAt_execMvf (f d a : Nat) (s : State) : StopsAt s (execMvf f d a s) := by
  refine stopsAt_andThen (stopsAt_beginOne _ _ _ _) fun nxt _ => ?_
  split
  · exact stopsAt_andThen (stopsAt_memRead _ _ _) fun _ _ => stopsAt_next _ _
  · exact stopsAt_memWrite _ _ _ _ _

theorem stopsAt_nextAddr_next {s : State} {len : Nat} (t : PAddr → State) :
    StopsAt s (andThen (nextAddr s len) fun nxt => .next (t nxt)) :=
  stopsAt_andThen (stopsAt_addrAfter _ _ _) fun _ _ => stopsAt_next _ _

/-- The operand checks stop the instruction, or are as good as not there. -/
theorem stopsAt_or_passes (s : State) (a sOp : Nat) (ok : Bool) (k : Unit → Res State) :
    StopsAt s (andThen (checkOperands s a sOp ok) k) ∨ andThen (checkOperands s a sOp ok) k = k () := by
  have hck := stopsAt_checkOperands s a sOp ok
  cases hx : checkOperands s a sOp ok with
  | next => exact .inr rfl
  | fault | refused => exact .inl (stopsAt_andThen (hx ▸ hck) nofun)

/-- Every stop of an instruction leaves the state it started in with the stop recorded, or is that of a return that pops. -/
theorem exec_stopsAt_or_pops (i : Instr) (s : State) :
    StopsAt s (exec i s) ∨ (isReturn i = true ∧ ∃ also, exec i s = popReturn s also) := by
  induction i using instr_byTemplate with
  | fda hi f d a => exact .inl (hi.exec_eq f d a s ▸ stopsAt_execFda _ _ _ _ _)
  | literal hi k => exact .inl (hi.exec_eq k s ▸ stopsAt_execLiteral _ _ _)
  | test hi f a => exact .inl (hi.exec_eq f a s ▸ stopsAt_execTest _ _ _ _ _)
  | count hi f d a => exact .inl (hi.exec_eq f d a s ▸ stopsAt_execCount _ _ _ _ _ _)
  | bit hi f b a => exact .inl (hi.exec_eq f b a s ▸ stopsAt_execBit _ _ _ _ _)
  | fill hi f a => exact .inl (hi.exec_eq f a s ▸ stopsAt_execFill _ _ _ _)
  | mvf f d a => exact .inl (stopsAt_execMvf f d a s)
  | nop | cwdt | idle | slp => exact .inl (stopsAt_nextAddr_next _)
  | ret sOp =>
    rcases stopsAt_or_passes s 0 sOp (inRangeS sOp) _ with hstop | hpass
    · exact .inl hstop
    · exact .inr ⟨rfl, _, hpass⟩
  | reti sOp =>
    simp only [exec, execReti]
    split
    · rcases stopsAt_or_passes s 0 sOp (inRangeS sOp) _ with hstop | hpass
      · exact .inl hstop
      · exact .inr ⟨rfl, _, hpass⟩
    · exact .inl (stopsAt_andThen (stopsAt_checkOperands _ _ _ _) fun _ _ => stopsAt_refuse)
  | retl k =>
    rcases stopsAt_or_passes s 0 0 (inRangeK k) _ with hstop | hpass
    · exact .inl hstop
    · exact .inr ⟨rfl, _, hpass⟩
  | call n sOp =>
    exact .inl (stopsAt_andThen (stopsAt_checkOperands _ _ _ _) fun _ _ =>
      stopsAt_andThen (stopsAt_addrAfter _ _ _) fun _ _ => stopsAt_andThen (stopsAt_push _ _) fun _ _ => stopsAt_next _ _)
  | jmp n => exact .inl (stopsAt_andThen (stopsAt_checkOperands _ _ _ _) fun _ _ => stopsAt_next _ _)

theorem popReturn_ne_refused {s : State} {also : State → State} {q : Refusal} : popReturn s also ≠ .refused q := by
  unfold popReturn
  split <;> nofun

/-- What a faulting instruction leaves. -/
theorem exec_eq_fault {i : Instr} {s t : State} {r : FaultReason} (h : exec i s = .fault (.raised r t)) :
    (isReturn i = true ∧ s.stack = [] ∧ r = .stackUnderflowReset s.pc ∧
      t = { s with stkun := true, skerr := true, fault := some r }) ∨
    ((∀ p, r ≠ .stackUnderflowReset p) ∧ t = { s with fault := some r }) := by
  rcases exec_stopsAt_or_pops i s with stops | ⟨hret, also, hpop⟩
  · exact .inr (stops.1 r t h)
  · exact .inl ⟨hret, popReturn_eq_fault.mp (hpop ▸ h)⟩

/-- What a refused instruction leaves. -/
theorem exec_eq_refused {i : Instr} {s t : State} {r : RefusalReason} (h : exec i s = .refused (.raised r t)) :
    t = { s with refused := some r } := by
  rcases exec_stopsAt_or_pops i s with stops | ⟨-, also, hpop⟩
  · exact stops.2 r t h
  · exact absurd (hpop ▸ h) popReturn_ne_refused

/-- Settles O26, by what an instruction leaves in each of its three outcomes. -/
theorem stackErrorWriters : Obligations.StackErrorWriters := by
  refine ⟨fun i s t h => ?_, fun i s t r => exec_eq_fault, fun i s t r => exec_eq_refused⟩
  obtain ⟨hstkun, hskerr, hfault, hrefused, -⟩ := exec_next_keeps h
  exact ⟨hstkun, hskerr, hfault, hrefused⟩

end Sys2Proof.Proofs
end

section
/-! What a step can do, and the invariant. -/

namespace Sys2Proof.Proofs

open Sys2Proof.Machine Sys2Proof.Statement

theorem stopOf_eq_none {s : State} :
    stopOf s = none ↔ s.refused = none ∧ s.fault = none ∧ s.cfg.wdtEnabled = false := by
  unfold stopOf
  split <;> simp_all

theorem step_of_stepped {s : State} (h : Stepped s) : step s = boundaryStep s := by
  simp only [step, stopOf_eq_none.mpr h]

/-- A step is the answer of a mark, or what happens at the boundary of a state without one. -/
theorem step_cases (s : State) :
    (∃ r, s.refused = some r ∧ step s = refuse s r) ∨
    (∃ r, s.refused = none ∧ s.fault = some r ∧ step s = raise s r) ∨
    (s.refused = none ∧ s.fault = none ∧ s.cfg.wdtEnabled = true ∧ step s = refuse s .watchdogEnabled) ∨
    (Stepped s ∧ step s = boundaryStep s) := by
  cases hr : s.refused with
  | some r => exact .inl ⟨r, rfl, by simp [step, stopOf, hr]⟩
  | none =>
    cases hf : s.fault with
    | some r => exact .inr (.inl ⟨r, rfl, rfl, by simp [step, stopOf, hr, hf]⟩)
    | none =>
      cases hw : s.cfg.wdtEnabled with
      | true => exact .inr (.inr (.inl ⟨rfl, rfl, rfl, by simp [step, stopOf, hr, hf, hw]⟩))
      | false => exact .inr (.inr (.inr ⟨⟨hr, hf, hw⟩, step_of_stepped ⟨hr, hf, hw⟩⟩))

/-- A boundary in Idle or Sleep only takes a draw or wakes up. -/
theorem haltedStep_eq (s : State) : ∃ run inputs, haltedStep s = .next { s with run := run, inputs := inputs } := by
  unfold haltedStep
  split
  · split
    · exact ⟨_, _, rfl⟩
    · exact ⟨s.run, _, rfl⟩
  · exact ⟨s.run, s.inputs, rfl⟩

/-- A boundary is interrupt entry, an instruction or a halted step. -/
theorem boundaryStep_cases (s : State) :
    boundaryStep s = interruptEntry s.consume ∨ boundaryStep s = fetchExec s.consume ∨
    ∃ run inputs, boundaryStep s = .next { s with run := run, inputs := inputs } := by
  unfold boundaryStep
  split
  · unfold runningStep
    split
    · exact .inl rfl
    · exact .inr (.inl rfl)
  · exact .inr (.inr (haltedStep_eq s))
  · exact .inr (.inr (haltedStep_eq s))

/-- A step that answers a next state entered an interrupt, executed an instruction, or was a halted one. -/
theorem step_eq_next {s t : State} (h : step s = .next t) :
    interruptEntry s.consume = .next t ∨ (∃ i, exec i s.consume = .next t) ∨
    ∃ run inputs, t = { s with run := run, inputs := inputs } := by
  rcases step_cases s with ⟨r, -, hs⟩ | ⟨r, -, -, hs⟩ | ⟨-, -, -, hs⟩ | ⟨-, hs⟩ <;> rw [hs] at h
  · exact absurd h refuse_ne_next
  · exact absurd h raise_ne_next
  · exact absurd h refuse_ne_next
  · rcases boundaryStep_cases s with hb | hb | ⟨run, inputs, hb⟩ <;> rw [hb] at h
    · exact .inl h
    · obtain ⟨i, -, hi⟩ := andThen_eq_next.mp h
      exact .inr (.inl ⟨i, hi⟩)
    · cases h
      exact .inr (.inr ⟨run, inputs, rfl⟩)

/-- Settles O21, by the three things a step can do. -/
theorem stepKeepsProgramAndConfiguration : Obligations.StepKeepsProgramAndConfiguration := by
  intro s t h
  rcases step_eq_next h with hentry | ⟨i, hexec⟩ | ⟨run, inputs, rfl⟩
  · obtain ⟨-, rfl⟩ := interruptEntry_eq_next.mp hentry
    exact ⟨rfl, rfl⟩
  · obtain ⟨-, -, -, -, hprog, hcfg⟩ := exec_next_keeps hexec
    exact ⟨hprog, hcfg⟩
  · exact ⟨rfl, rfl⟩

/-! ### The invariant -/

theorem inv_consume {s : State} (hs : s.Inv) : s.consume.Inv := { hs with }

theorem inv_run_inputs {s : State} (hs : s.Inv) (run : RunState) (inputs : List Input) :
    State.Inv { s with run := run, inputs := inputs } := { hs with }

theorem inv_refused {s : State} (hs : s.Inv) (r : Option RefusalReason) : State.Inv { s with refused := r } := { hs with }

/-- A stored byte keeps data memory in its canonical form and its values at RAM addresses. -/
theorem inv_of_ram_write {s : State} (hs : s.Inv) {f : Nat} (v : Byte) (hf : dataClass s.cfg f = .ram) :
    State.Inv { s with ram := Memory.write s.ram f v } :=
  { hs with
    ramForm := Memory.write_wf _ _ _ hs.ramForm
    ramPlace := fun x hx => by
      rcases Memory.mem_write hx with rfl | hx
      · exact hf
      · exact hs.ramPlace x hx }

theorem inv_pop {s : State} (hs : s.Inv) {p : PAddr} {rest : List PAddr} (hstack : s.stack = p :: rest) :
    State.Inv { s with stack := rest } :=
  { hs with
    stackFits := by
      have := hs.stackFits
      simp only [State.sp, hstack, List.length_cons] at this ⊢
      omega }

theorem inv_push {s : State} (hs : s.Inv) (p : PAddr) (room : s.sp < s.cfg.stackDepth) :
    State.Inv { s with stack := p :: s.stack } := { hs with stackFits := room }

theorem Effect.inv {s t : State} {i : Instr} (h : Effect s i t) (hs : s.Inv) : t.Inv := by
  cases h with
  | data w ram c z p _ hram =>
    rcases hram with rfl | ⟨f, v, -, -, hf, rfl⟩
    · exact { hs with }
    · exact { inv_of_ram_write hs v hf with }
  | cwdt p => exact { hs with wdtFits := Nat.two_pow_pos _ }
  | idle | slp => exact { hs with }
  | call n sOp p room => exact { inv_push hs (s.pc + 2#11) room with }
  | ret sOp hstack => exact { inv_pop hs hstack with }
  | reti sOp hstack modelled =>
    exact { inv_pop hs hstack with gieOff := fun off => absurd (modelled.symm.trans off) (by decide) }
  | retl k hstack => exact { inv_pop hs hstack with }

theorem inv_interruptEntry {s t : State} (hs : s.Inv) (h : interruptEntry s = .next t) : t.Inv := by
  obtain ⟨room, rfl⟩ := interruptEntry_eq_next.mp h
  exact { inv_push hs s.pc room with gieOff := fun _ => rfl }

/-- Settles O17, by the three things a step can do, each of which keeps the invariant. -/
theorem stepKeepsTheInvariant : Obligations.StepKeepsTheInvariant := by
  intro s t hs h
  rcases step_eq_next h with hentry | ⟨i, hexec⟩ | ⟨run, inputs, rfl⟩
  · exact inv_interruptEntry (inv_consume hs) hentry
  · exact (exec_effect hexec).inv (inv_consume hs)
  · exact inv_run_inputs hs run inputs

/-- STKUN is 0 in a state of the invariant that no fault stops. -/
theorem inv_stkun_of_no_fault {s : State} (hs : s.Inv) (hf : s.fault = none) : s.stkun = false := by
  by_contra h
  obtain ⟨p, hp⟩ := hs.underflowEnds (by simpa using h)
  simp [hf] at hp

/-- The fault of a boundary: recorded in the state with the draw taken, with STKUN and SKERR for a stack underflow. -/
theorem boundaryStep_eq_fault {s t : State} {r : FaultReason} (h : boundaryStep s = .fault (.raised r t)) :
    t = { s.consume with fault := some r } ∨
    ∃ p, r = .stackUnderflowReset p ∧ t = { s.consume with stkun := true, skerr := true, fault := some r } := by
  rcases boundaryStep_cases s with hb | hb | ⟨run, inputs, hb⟩ <;> rw [hb] at h
  · exact .inl ((stopsAt_interruptEntry _).1 r t h).2
  · rcases andThen_eq_fault.mp h with hfetch | ⟨i, -, hexec⟩
    · exact .inl ((stopsAt_fetch _ _).1 r t hfetch).2
    · rcases exec_eq_fault hexec with ⟨-, -, hr, ht⟩ | ⟨-, ht⟩
      · exact .inr ⟨_, hr, ht⟩
      · exact .inl ht
  · cases h

theorem boundaryStep_eq_refused {s t : State} {r : RefusalReason} (h : boundaryStep s = .refused (.raised r t)) :
    t = { s.consume with refused := some r } := by
  rcases boundaryStep_cases s with hb | hb | ⟨run, inputs, hb⟩ <;> rw [hb] at h
  · exact (stopsAt_interruptEntry _).2 r t h
  · rcases andThen_eq_refused.mp h with hfetch | ⟨i, -, hexec⟩
    · exact (stopsAt_fetch _ _).2 r t hfetch
    · exact exec_eq_refused hexec
  · cases h

theorem inv_left_by_fault {s t : State} {r : FaultReason} (hs : s.Inv) (h : step s = .fault (.raised r t)) : t.Inv := by
  rcases step_cases s with ⟨q, -, hq⟩ | ⟨q, -, hf, hq⟩ | ⟨-, -, -, hq⟩ | ⟨⟨-, hf, -⟩, hq⟩ <;> rw [hq] at h
  · cases h
  · obtain ⟨rfl, rfl⟩ := raise_eq_fault.mp h
    exact { hs with underflowEnds := hf ▸ hs.underflowEnds }
  · cases h
  · rcases boundaryStep_eq_fault h with rfl | ⟨p, rfl, rfl⟩
    · exact { hs with underflowEnds := fun on => absurd ((inv_stkun_of_no_fault hs hf).symm.trans on) (by decide) }
    · exact { hs with underflowEnds := fun _ => ⟨p, rfl⟩ }

theorem inv_left_by_refusal {s t : State} {r : RefusalReason} (hs : s.Inv) (h : step s = .refused (.raised r t)) :
    t.Inv := by
  rcases step_cases s with ⟨q, -, hq⟩ | ⟨q, -, -, hq⟩ | ⟨-, -, -, hq⟩ | ⟨-, hq⟩ <;> rw [hq] at h
  · obtain ⟨-, rfl⟩ := refuse_eq_refused.mp h
    exact inv_refused hs _
  · cases h
  · obtain ⟨-, rfl⟩ := refuse_eq_refused.mp h
    exact inv_refused hs _
  · obtain rfl := boundaryStep_eq_refused h
    exact inv_refused (inv_consume hs) _

/-- Settles O18, by what a fault and a refusal leave of the state. -/
theorem stopsKeepTheInvariant : Obligations.StopsKeepTheInvariant :=
  fun _ hs => ⟨fun _ _ => inv_left_by_fault hs, fun _ _ => inv_left_by_refusal hs⟩

/-- Settles O19: every field of the reset state is empty or 0. -/
theorem resetHasTheInvariant : Obligations.ResetHasTheInvariant := fun _ hg =>
  { config := hg
    ramForm := rfl
    ramPlace := nofun
    progForm := rfl
    progPlace := nofun
    stackFits := Nat.zero_le _
    wdtFits := Nat.two_pow_pos _
    gieOff := fun _ => rfl
    underflowEnds := nofun }

/-- Settles O20, by the definition of the reset state. -/
theorem resetState : Obligations.ResetState :=
  fun _ => ⟨rfl, rfl, rfl, rfl, rfl, rfl, rfl, rfl, fun _ => rfl⟩

/-! ### The halted states -/

theorem boundaryStep_of_halted {s : State} (h : s.run ≠ .running) : boundaryStep s = haltedStep s := by
  unfold boundaryStep
  split
  · exact absurd ‹_› h
  · rfl
  · rfl

/-- Settles O13, by the two tests of a halted boundary. -/
theorem haltedStepOnlyWakes : Obligations.HaltedStepOnlyWakes := by
  intro s hs hrun
  rw [step_of_stepped hs, boundaryStep_of_halted hrun]
  refine ⟨fun hw => ?_, fun x ds hw hin => ?_, fun x ds hw hin => ?_, fun hw hin => ?_⟩
  · simp [haltedStep, hw]
  · simp [haltedStep, hw, currentInput, State.consume, hin]
  · simp [haltedStep, hw, currentInput, State.consume, hin]
  · have hself : s.consume = s := by
      obtain ⟨⟩ := s
      cases hin
      rfl
    simp [haltedStep, hw, currentInput, hin, hself]

end Sys2Proof.Proofs
end

section
/-! What stops an admitted instruction before it does anything else: the next address, then the operand f. -/

namespace Sys2Proof.Proofs

open Sys2Proof.Machine Sys2Proof.Statement

/-- The operand checks of an admitted term pass (rules R62, R94 and R201). -/
theorem checkOperands_of_admitted {s : State} {a sOp : Nat} {ok : Bool} (h : (ok && a == 0 && sOp == 0) = true) :
    checkOperands s a sOp ok = .next () := by
  simp only [Bool.and_eq_true, beq_iff_eq] at h
  exact checkOperands_eq_next.mpr ⟨by omega, by omega, h.1.1⟩

theorem beginOne_of_admitted {s : State} {a : Nat} {ok : Bool} (h : (ok && a == 0 && true) = true) :
    beginOne s a 0 ok = nextAddr s 1 := by
  rw [beginOne, checkOperands_of_admitted h, andThen_next]

theorem nextAddr_of_le {s : State} {len : Nat} (h : 2048 ≤ s.pc.toNat + len) :
    nextAddr s len = raise s (.pcOutOfRange s.pc) :=
  if_neg (Nat.not_lt.mpr h)

theorem nextAddr_of_lt {s : State} {len : Nat} (h : s.pc.toNat + len < 2048) :
    nextAddr s len = .next (s.pc + BitVec.ofNat 11 len) := if_pos h

theorem toNat_succ_lt_of_ne {p : PAddr} (h : p ≠ 0x7FF#11) : p.toNat + 1 < 2048 := by bv_omega

/-- What an admitted instruction with the operand f does first: it computes `next`, and then reads f or, unread, writes it. -/
theorem exec_of_fileOperand {i : Instr} {f : Nat} (hf : fileOperand i = some f) (hadm : i.admitted = true) (s : State) :
    i.words = 1 ∧
    ((∃ k : PAddr → Byte → Res State, exec i s = andThen (nextAddr s 1) fun nxt => andThen (memRead s nxt f) (k nxt)) ∨
     (readsFile i = false ∧ ∃ v, exec i s = andThen (nextAddr s 1) fun nxt => memWrite s nxt nxt f v)) := by
  induction i using instr_byTemplate with
  | fda hi f' d a =>
    obtain rfl : f' = f := Option.some.inj ((hi.file f' d a).operand.symm.trans hf)
    rw [hi.exec_eq, execFda, beginOne_of_admitted (hi.admitted f' d a ▸ hadm)]
    exact ⟨(hi.file f' d a).words, .inl ⟨_, rfl⟩⟩
  | test hi f' a =>
    obtain rfl : f' = f := Option.some.inj ((hi.file f' a).operand.symm.trans hf)
    rw [hi.exec_eq, execTest, beginOne_of_admitted (hi.admitted f' a ▸ hadm)]
    exact ⟨(hi.file f' a).words, .inl ⟨_, rfl⟩⟩
  | count hi f' d a =>
    obtain rfl : f' = f := Option.some.inj ((hi.file f' d a).operand.symm.trans hf)
    rw [hi.exec_eq, execCount, beginOne_of_admitted (hi.admitted f' d a ▸ hadm)]
    exact ⟨(hi.file f' d a).words, .inl ⟨_, rfl⟩⟩
  | bit hi f' b a =>
    obtain rfl : f' = f := Option.some.inj ((hi.file f' b a).operand.symm.trans hf)
    rw [hi.exec_eq, execBit, beginOne_of_admitted (hi.admitted f' b a ▸ hadm)]
    exact ⟨(hi.file f' b a).words, .inl ⟨_, rfl⟩⟩
  | fill hi f' a =>
    obtain rfl : f' = f := Option.some.inj ((hi.file f' a).operand.symm.trans hf)
    rw [hi.exec_eq, execFill, beginOne_of_admitted (hi.admitted f' a ▸ hadm)]
    exact ⟨(hi.file f' a).words, .inr ⟨(hi.file f' a).readsFile, _, rfl⟩⟩
  | mvf f' d a =>
    obtain rfl : f' = f := Option.some.inj hf
    refine ⟨rfl, ?_⟩
    have hbegin : beginOne s a 0 (inRangeFda f' d a) = nextAddr s 1 := beginOne_of_admitted hadm
    simp only [exec, execMvf, hbegin]
    split
    · exact .inl ⟨_, rfl⟩
    · exact .inr ⟨by simpa [readsFile], _, rfl⟩
  | literal hi k => cases hi <;> cases hf
  | nop | cwdt | idle | slp | ret | reti | retl | call | jmp => cases hf

/-- An admitted instruction that uses `next` computes it before anything else (rules R28 and R254). -/
theorem exec_of_usesNext {i : Instr} (hadm : i.admitted = true) (hnext : usesNext i = true) (s : State) :
    ∃ k, exec i s = andThen (nextAddr s i.words) k := by
  cases hf : fileOperand i with
  | some f =>
    obtain ⟨hwords, ⟨k, hk⟩ | ⟨-, v, hv⟩⟩ := exec_of_fileOperand hf hadm s
    · exact ⟨_, hwords ▸ hk⟩
    · exact ⟨_, hwords ▸ hv⟩
  | none =>
    induction i using instr_byTemplate with
    | literal hi k =>
      rw [hi.exec_eq, execLiteral, beginOne_of_admitted (hi.admitted k ▸ hadm), hi.words]
      exact ⟨_, rfl⟩
    | nop | cwdt | idle | slp => exact ⟨_, rfl⟩
    | call n sOp =>
      have hck : checkOperands s 0 sOp (inRangeNs n sOp) = .next () := checkOperands_of_admitted hadm
      rw [exec, execCall, hck, andThen_next]
      exact ⟨_, rfl⟩
    | ret | reti | retl | jmp => cases hnext
    | fda hi f d a => cases (hi.file f d a).operand.symm.trans hf
    | test hi f a => cases (hi.file f a).operand.symm.trans hf
    | count hi f d a => cases (hi.file f d a).operand.symm.trans hf
    | bit hi f b a => cases (hi.file f b a).operand.symm.trans hf
    | fill hi f a => cases (hi.file f a).operand.symm.trans hf
    | mvf => cases hf

/-- Settles O54: `next` is what an instruction that uses it computes first. -/
theorem pcNeverWraps : Obligations.PcNeverWraps := by
  intro i s hadm hnext htop
  obtain ⟨k, hk⟩ := exec_of_usesNext hadm hnext s
  rw [hk, nextAddr_of_le htop]
  rfl

/-- The refusal of an operand f is that of reading and of writing it alike. -/
theorem exec_of_access_refused {i : Instr} {s : State} {f : Nat} {r : RefusalReason} (hadm : i.admitted = true)
    (hf : fileOperand i = some f) (hpc : s.pc ≠ 0x7FF#11) (hread : ∀ nxt, memRead s nxt f = refuse s r)
    (hwrite : ∀ nxt p v, memWrite s nxt p f v = refuse s r) : exec i s = refuse s r := by
  have hnext := nextAddr_of_lt (toNat_succ_lt_of_ne hpc)
  obtain ⟨-, ⟨k, hk⟩ | ⟨-, v, hv⟩⟩ := exec_of_fileOperand hf hadm s
  · rw [hk, hnext, andThen_next, hread, andThen_refuse]
  · rw [hv, hnext, andThen_next, hwrite]

/-- Settles O52, by the class of the address f. -/
theorem dataAddressRefusals : Obligations.DataAddressRefusals := by
  intro i s f hadm hf hpc hwreg hpclatl
  refine ⟨fun hflag => ?_, fun hflag hram => ?_⟩
  · have hclass : dataClass s.cfg f = .flagRegister := by simp [dataClass, addrWreg, hwreg, hpclatl, hflag]
    exact exec_of_access_refused hadm hf hpc (fun _ => by simp only [memRead, hclass]) fun _ _ _ => by
      simp only [memWrite, hclass]
  · have hclass : dataClass s.cfg f = .unknown := by simp [dataClass, addrWreg, hwreg, hpclatl, hflag, hram]
    exact exec_of_access_refused hadm hf hpc (fun _ => by simp only [memRead, hclass]) fun _ _ _ => by
      simp only [memWrite, hclass]

theorem dataClass_of_plainRam {g : Config} {f : Nat} (h : PlainRam g f) : dataClass g f = .ram := by
  obtain ⟨hwreg, hpclatl, hflag, hram⟩ := h
  simp [dataClass, addrWreg, hwreg, hpclatl, hflag, hram]

theorem dataClass_of_isPclatl {g : Config} {f : Nat} (h : IsPclatl g f) : dataClass g f = .pclatl := by
  obtain ⟨hwreg, hpclatl⟩ := h
  simp [dataClass, addrWreg, hwreg, hpclatl]

/-- Settles O53: the read of f comes right after `next`. -/
theorem unwrittenRamReadFaults : Obligations.UnwrittenRamReadFaults := by
  intro i s f hadm hf hreads hpc hplain hnone
  have hread : ∀ nxt, memRead s nxt f = raise s (.uninitialisedRead f) := fun _ => by
    simp only [memRead, dataClass_of_plainRam hplain, hnone]
  obtain ⟨-, ⟨k, hk⟩ | ⟨hunread, -⟩⟩ := exec_of_fileOperand hf hadm s
  · rw [hk, nextAddr_of_lt (toNat_succ_lt_of_ne hpc), andThen_next, hread]
    rfl
  · cases hreads.symm.trans hunread

/-! ### CALL, the returns and the look-up table -/

/-- Settles O48, by the checks of CALL in their order: the next address, then the room on the stack. -/
theorem callResults : Obligations.CallResults := by
  intro s n hn
  have hck : checkOperands s 0 0 (inRangeNs n 0) = .next () := checkOperands_of_admitted (by simp [inRangeNs, hn])
  refine ⟨fun hpc hroom => ?_, fun hpc hfull => ?_, fun hpc => ?_⟩
  · have hret : s.pc + 2#11 = BitVec.ofNat 11 (s.pc.toNat + 2) := by bv_omega
    simp only [exec, execCall, hck, andThen_next, nextAddr_of_lt hpc, push, if_pos hroom, hret]
    rfl
  · simp only [exec, execCall, hck, andThen_next, nextAddr_of_lt hpc, push, if_neg (Nat.not_lt.mpr hfull)]
    rfl
  · simp only [exec, execCall, hck, andThen_next, nextAddr_of_le hpc]
    rfl

/-- A return on an empty stack is the underflow, whatever else the return would do. -/
theorem popReturn_of_empty {s : State} (h : s.stack = []) (also : State → State) :
    popReturn s also = faults { s with stkun := true, skerr := true } (.stackUnderflowReset s.pc) := by
  unfold popReturn
  split
  · rfl
  · simp_all

theorem exec_retl {s : State} {k : Nat} (hk : k < 256) :
    exec (.retl k) s = popReturn s fun t => t.setW (BitVec.ofNat 8 k) := by
  have hck : checkOperands s 0 0 (inRangeK k) = .next () := checkOperands_of_admitted (by simp [inRangeK, hk])
  simp only [exec, execRetl, hck, andThen_next]

/-- Settles O50: each of the three returns comes to popReturn, which finds the stack empty. -/
theorem returnOnEmptyStackResets : Obligations.ReturnOnEmptyStackResets := by
  intro s k hk hempty
  refine ⟨popReturn_of_empty hempty fun t => t, ?_, fun hmod => ?_⟩
  · exact (exec_retl hk).trans (popReturn_of_empty hempty _)
  · exact (if_pos hmod).trans (popReturn_of_empty hempty fun t => { t with gie := true })

/-- Within a 256-word page, writing to PCLATL what it reads plus v goes v words on (rules R44, R45 and R211). -/
theorem toNat_pclatlTarget_add {nxt : PAddr} {v : Byte} (h : nxt.toNat % 256 + v.toNat < 256) :
    (pclatlTarget nxt (addResult (pclatlRead nxt) v false).value).toNat = nxt.toNat + v.toNat := by
  have hn := nxt.isLt
  simp only [pclatlTarget, addResult, pclatlRead, BitVec.toNat_append, BitVec.extractLsb'_toNat, BitVec.toNat_setWidth,
    BitVec.toNat_ofNat, Bool.toNat_false, Nat.shiftRight_eq_div_pow]
  rw [← Nat.shiftLeft_add_eq_or_of_lt (by omega), Nat.shiftLeft_eq]
  omega

/-- ADDF to PCLATL writes the sum there, and the flags. -/
theorem exec_addf_pclatl {s : State} {p : Nat} (hp : p < 256) (hpclatl : IsPclatl s.cfg p) (hpc : s.pc.toNat + 1 < 2048) :
    exec (.addf p 1 0) s =
      let r := addResult (pclatlRead (s.pc + 1#11)) s.w false
      .next ((s.setPc (pclatlTarget (s.pc + 1#11) r.value)).writeFlags r) := by
  have hclass := dataClass_of_isPclatl hpclatl
  have hread : memRead s (s.pc + 1#11) p = .next (pclatlRead (s.pc + 1#11)) :=
    memRead_eq_next.mpr (.inr (.inl ⟨hclass, rfl⟩))
  rw [FdaInstr.addf.exec_eq, execFda_eq_next]
  refine ⟨by decide, by simp [inRangeFda, hp], hpc, _, hread, _, ?_, rfl⟩
  exact writeDest_eq_next.mpr (.inr ⟨by decide, memWrite_eq_next.mpr (.inr (.inl ⟨hclass, rfl⟩))⟩)

/-- Settles O59: ADDF goes to the entry, and the RETL there to the caller. -/
theorem tableLookupReturnsTheEntry : Obligations.TableLookupReturnsTheEntry := by
  intro s p k r rest hp hk hpclatl hstack hpc hpage
  have hnxt : (s.pc + 1#11).toNat = s.pc.toNat + 1 := by bv_omega
  have hadd := exec_addf_pclatl hp hpclatl hpc
  have hretl : ∀ t : State, t.stack = r :: rest → exec (.retl k) t = .next _ := fun t ht =>
    (exec_retl hk).trans (popReturn_eq_next.mpr ⟨r, rest, ht, rfl⟩)
  refine ⟨_, _, hadd, ?_, rfl, rfl, hretl _ hstack, rfl, rfl, rfl⟩
  rw [← hnxt] at hpage ⊢
  exact toNat_pclatlTarget_add hpage

end Sys2Proof.Proofs
end

section
/-! Two states that no instruction tells apart run alike. The argument is made once, for any relation between states that
fixes what is read and is kept by every update the machine makes; three statements are instances of it. -/

namespace Sys2Proof.Proofs

open Sys2Proof.Machine Sys2Proof.Statement

/-- Two outcomes of one operation at related states: related values, or the same stop leaving related states. Where `slack`
holds, a fault of the first may be anything in the second. -/
inductive Alike (slack : Prop) (R : State → State → Prop) {α : Type} (V : α → α → Prop) :
    Res α → Res α → Prop where
  | next {v v' : α} (h : V v v') : Alike slack R V (.next v) (.next v')
  | fault {t t' : State} (r : FaultReason) (h : R t t') : Alike slack R V (.fault (.raised r t)) (.fault (.raised r t'))
  | refused {t t' : State} (r : RefusalReason) (h : R t t') :
      Alike slack R V (.refused (.raised r t)) (.refused (.raised r t'))
  | slack (h : slack) (q : Fault) (y : Res α) : Alike slack R V (.fault q) y

/-- The two states agree in everything that some instruction reads, C and the stack depth apart. -/
structure SameReads (s s' : State) : Prop where
  dataClass : dataClass s'.cfg = dataClass s.cfg
  cmpSigned : s'.cfg.cmpSigned = s.cfg.cmpSigned
  interruptsModelled : s'.cfg.interruptsModelled = s.cfg.interruptsModelled
  intVector : s'.cfg.intVector = s.cfg.intVector
  wakeModelled : s'.cfg.wakeModelled = s.cfg.wakeModelled
  wdtEnabled : s'.cfg.wdtEnabled = s.cfg.wdtEnabled
  w : s'.w = s.w
  ram : s'.ram = s.ram
  gie : s'.gie = s.gie
  stack : s'.stack = s.stack
  pc : s'.pc = s.pc
  run : s'.run = s.run
  fault : s'.fault = s.fault
  refused : s'.refused = s.refused
  prog : s'.prog = s.prog
  inputs : s'.inputs = s.inputs

/-- The updates the machine makes of a state. -/
inductive Update : (State → State) → Prop where
  | pc (p : PAddr) : Update (·.setPc p)
  | w (v : Byte) : Update (·.setW v)
  | ram (a : Nat) (v : Byte) : Update (·.setRam a v)
  | flags (r : AluResult) : Update (·.writeFlags r)
  | stack (t : List PAddr) : Update (·.setStack t)
  | gie (b : Bool) : Update fun s => { s with gie := b }
  | cwdt : Update fun s => { s with wdt := 0, toFlag := false }
  | idle : Update fun s => { s with idleb := true, run := .idle }
  | slp : Update fun s => { s with pd := true, run := .sleep }
  | underflow : Update fun s => { s with stkun := true, skerr := true }
  | fault (r : FaultReason) : Update fun s => { s with fault := some r }
  | refused (r : RefusalReason) : Update fun s => { s with refused := some r }
  | consume : Update State.consume
  | wake : Update fun s => { s with run := .running }

/-- States related by R are told apart by nothing but C, and by the stack depth only where `slack` holds, the second being the
deeper; and every update keeps them related. -/
structure Indistinct (slack : Prop) (R : State → State → Prop) : Prop where
  reads : ∀ {s s'}, R s s' → SameReads s s'
  depth : ∀ {s s'}, R s s' →
    s'.cfg.stackDepth = s.cfg.stackDepth ∨ (slack ∧ s.cfg.stackDepth ≤ s'.cfg.stackDepth)
  update : ∀ {F}, Update F → ∀ {s s'}, R s s' → R (F s) (F s')

section
variable {slack : Prop} {R : State → State → Prop}

theorem Alike.andThen {α β : Type} {V : α → α → Prop} {V' : β → β → Prop} {x x' : Res α} {k k' : α → Res β}
    (hx : Alike slack R V x x') (hk : ∀ v v', V v v' → Alike slack R V' (k v) (k' v')) :
    Alike slack R V' (andThen x k) (andThen x' k') := by
  cases hx with
  | next h => exact hk _ _ h
  | fault r h => exact .fault r h
  | refused r h => exact .refused r h
  | slack h q y => exact .slack h q _

/-- The case of a value that is the same on both sides. -/
theorem Alike.andThen_eq {α β : Type} {V' : β → β → Prop} {x x' : Res α} {k k' : α → Res β}
    (hx : Alike slack R Eq x x') (hk : ∀ v, Alike slack R V' (k v) (k' v)) :
    Alike slack R V' (Machine.andThen x k) (Machine.andThen x' k') :=
  hx.andThen fun v _ h => h ▸ hk v

variable (H : Indistinct slack R) {s s' : State}
include H

/-! ### The shared operations -/

theorem alike_raise {α : Type} {V : α → α → Prop} (h : R s s') (r : FaultReason) :
    Alike slack R V (raise s r) (raise s' r) := .fault r (H.update (.fault r) h)

theorem alike_refuse {α : Type} {V : α → α → Prop} (h : R s s') (r : RefusalReason) :
    Alike slack R V (refuse s r) (refuse s' r) := .refused r (H.update (.refused r) h)

theorem alike_checkOperands (h : R s s') (a sOp : Nat) (ok : Bool) :
    Alike slack R Eq (checkOperands s a sOp ok) (checkOperands s' a sOp ok) := by
  unfold checkOperands
  split
  · exact alike_refuse H h _
  · split
    · exact alike_refuse H h _
    · split
      · exact .next rfl
      · exact alike_refuse H h _

theorem alike_addrAfter (h : R s s') (p : PAddr) (len : Nat) :
    Alike slack R Eq (addrAfter s p len) (addrAfter s' p len) := by
  unfold addrAfter
  rw [(H.reads h).pc]
  split
  · exact .next rfl
  · exact alike_raise H h _

theorem alike_nextAddr (h : R s s') (len : Nat) : Alike slack R Eq (nextAddr s len) (nextAddr s' len) := by
  unfold nextAddr
  rw [(H.reads h).pc]
  exact alike_addrAfter H h _ _

theorem alike_beginOne (h : R s s') (a sOp : Nat) (ok : Bool) :
    Alike slack R Eq (beginOne s a sOp ok) (beginOne s' a sOp ok) :=
  (alike_checkOperands H h _ _ _).andThen_eq fun _ => alike_nextAddr H h _

theorem alike_memRead (h : R s s') (nxt : PAddr) (f : Nat) :
    Alike slack R Eq (memRead s nxt f) (memRead s' nxt f) := by
  have same := H.reads h
  unfold memRead
  rw [same.dataClass, same.ram, same.w]
  cases dataClass s.cfg f with
  | wreg | pclatl => exact .next rfl
  | flagRegister | unknown => exact alike_refuse H h _
  | ram =>
    cases Memory.read s.ram f with
    | some v => exact .next rfl
    | none => exact alike_raise H h _

theorem alike_memWrite (h : R s s') (nxt p : PAddr) (f : Nat) (v : Byte) :
    Alike slack R R (memWrite s nxt p f v) (memWrite s' nxt p f v) := by
  unfold memWrite
  rw [(H.reads h).dataClass]
  cases dataClass s.cfg f with
  | wreg => exact .next (H.update (.pc p) (H.update (.w v) h))
  | pclatl => exact .next (H.update (.pc _) h)
  | ram => exact .next (H.update (.pc p) (H.update (.ram f v) h))
  | flagRegister | unknown => exact alike_refuse H h _

theorem alike_writeDest (h : R s s') (nxt p : PAddr) (f d : Nat) (v : Byte) :
    Alike slack R R (writeDest s nxt p f d v) (writeDest s' nxt p f d v) := by
  unfold writeDest
  split
  · exact .next (H.update (.pc p) (H.update (.w v) h))
  · exact alike_memWrite H h _ _ _ _

theorem slotAt_congr (h : R s s') (p : PAddr) : slotAt s' p = slotAt s p := by
  simp only [slotAt, slotWords, progWord, (H.reads h).prog]

theorem alike_fetch (h : R s s') (p : PAddr) : Alike slack R Eq (fetch s p) (fetch s' p) := by
  unfold fetch
  rw [slotAt_congr H h]
  cases slotAt s p with
  | ok i => exact .next rfl
  | error e => exact alike_raise H h _

theorem alike_skipIf (h : R s s') (nxt : PAddr) (cond : Bool) :
    Alike slack R Eq (skipIf s nxt cond) (skipIf s' nxt cond) := by
  cases cond with
  | true => exact (alike_fetch H h nxt).andThen_eq fun j => alike_addrAfter H h nxt j.words
  | false => exact .next rfl

theorem alike_push (h : R s s') (v : PAddr) : Alike slack R R (push s v) (push s' v) := by
  have same := H.reads h
  unfold push
  rw [State.sp, State.sp, same.stack, same.pc]
  by_cases room : s.stack.length < s.cfg.stackDepth
  · have room' : s.stack.length < s'.cfg.stackDepth := by
      rcases H.depth h with heq | ⟨-, hle⟩ <;> omega
    rw [if_pos room, if_pos room']
    exact .next (H.update (.stack _) h)
  · rw [if_neg room]
    rcases H.depth h with heq | ⟨loose, -⟩
    · rw [heq, if_neg room]
      exact alike_raise H h _
    · exact .slack loose _ _

theorem alike_stackUnderflow {α : Type} {V : α → α → Prop} (h : R s s') :
    Alike slack R V (stackUnderflow s) (stackUnderflow s') := by
  have hraise := alike_raise (V := V) H (H.update .underflow h) (.stackUnderflowReset s.pc)
  simpa only [stackUnderflow, (H.reads h).pc] using hraise

theorem alike_popReturn (h : R s s') {also : State → State} (halso : ∀ {t t'}, R t t' → R (also t) (also t')) :
    Alike slack R R (popReturn s also) (popReturn s' also) := by
  unfold popReturn
  rw [(H.reads h).stack]
  cases s.stack with
  | nil => exact alike_stackUnderflow H h
  | cons t rest => exact .next (halso (H.update (.pc t) (H.update (.stack rest) h)))

/-! ### The templates and exec -/

theorem alike_execFda (h : R s s') {op : Byte → Byte → Bool → AluResult} (hop : ∀ x y, op x y s'.c = op x y s.c)
    (f d a : Nat) : Alike slack R R (execFda op f d a s) (execFda op f d a s') := by
  refine (alike_beginOne H h _ _ _).andThen_eq fun nxt => (alike_memRead H h nxt f).andThen_eq fun fv => ?_
  rw [(H.reads h).w, hop]
  exact (alike_writeDest H h _ _ _ _ _).andThen fun t t' ht => .next (H.update (.flags _) ht)

theorem alike_execLiteral (h : R s s') (op : Byte → Byte → AluResult) (k : Nat) :
    Alike slack R R (execLiteral op k s) (execLiteral op k s') := by
  refine (alike_beginOne H h _ _ _).andThen_eq fun nxt => ?_
  rw [(H.reads h).w]
  exact .next (H.update (.flags _) (H.update (.w _) (H.update (.pc nxt) h)))

theorem alike_execTest (h : R s s') {cond cond' : Byte → Byte → Bool} (hcond : ∀ x y, cond' x y = cond x y)
    (f a : Nat) (ok : Bool) : Alike slack R R (execTest cond f a ok s) (execTest cond' f a ok s') := by
  refine (alike_beginOne H h _ _ _).andThen_eq fun nxt => (alike_memRead H h nxt f).andThen_eq fun fv => ?_
  rw [(H.reads h).w, hcond]
  exact (alike_skipIf H h _ _).andThen_eq fun p => .next (H.update (.pc p) h)

theorem alike_execCount (h : R s s') (delta : Byte) (cond : Byte → Bool) (f d a : Nat) :
    Alike slack R R (execCount delta cond f d a s) (execCount delta cond f d a s') :=
  (alike_beginOne H h _ _ _).andThen_eq fun nxt => (alike_memRead H h nxt f).andThen_eq fun _ =>
    (alike_skipIf H h _ _).andThen_eq fun _ => alike_writeDest H h _ _ _ _ _

theorem alike_execBit (h : R s s') (op : Byte → Byte) (f b a : Nat) :
    Alike slack R R (execBit op f b a s) (execBit op f b a s') :=
  (alike_beginOne H h _ _ _).andThen_eq fun nxt => (alike_memRead H h nxt f).andThen_eq fun _ =>
    alike_memWrite H h _ _ _ _

theorem alike_execFill (h : R s s') (v : Byte) (f a : Nat) :
    Alike slack R R (execFill v f a s) (execFill v f a s') :=
  (alike_beginOne H h _ _ _).andThen_eq fun _ => alike_memWrite H h _ _ _ _

theorem alike_execMvf (h : R s s') (f d a : Nat) : Alike slack R R (execMvf f d a s) (execMvf f d a s') := by
  refine (alike_beginOne H h _ _ _).andThen_eq fun nxt => ?_
  rw [(H.reads h).w]
  split
  · exact (alike_memRead H h nxt f).andThen_eq fun fv => .next (H.update (.w fv) (H.update (.pc nxt) h))
  · exact alike_memWrite H h _ _ _ _

/-- The instructions that use `next` and then update the state without another check. -/
theorem alike_nextAddr_update (h : R s s') {F : State → State} (hF : ∀ {t t'}, R t t' → R (F t) (F t')) (len : Nat) :
    Alike slack R R (andThen (nextAddr s len) fun nxt => .next ((F s).setPc nxt))
      (andThen (nextAddr s' len) fun nxt => .next ((F s').setPc nxt)) :=
  (alike_nextAddr H h len).andThen_eq fun nxt => .next (H.update (.pc nxt) (hF h))

/-- An instruction does the same at related states, if it does not read C or they agree in C. -/
theorem alike_exec (i : Instr) (hc : readsC i = false ∨ s'.c = s.c) (h : R s s') :
    Alike slack R R (exec i s) (exec i s') := by
  induction i using instr_byTemplate with
  | fda hi f d a =>
    rw [hi.exec_eq, hi.exec_eq]
    refine alike_execFda H h (fun x y => ?_) f d a
    rcases hc with hr | hc
    · exact hi.ignoresC hr x y _ _
    · rw [hc]
  | literal hi k =>
    rw [hi.exec_eq, hi.exec_eq]
    exact alike_execLiteral H h _ k
  | test hi f a =>
    rw [hi.exec_eq, hi.exec_eq]
    exact alike_execTest H h (hi.cond_congr (H.reads h).cmpSigned) f a _
  | count hi f d a =>
    rw [hi.exec_eq, hi.exec_eq]
    exact alike_execCount H h _ _ f d a
  | bit hi f b a =>
    rw [hi.exec_eq, hi.exec_eq]
    exact alike_execBit H h _ f b a
  | fill hi f a =>
    rw [hi.exec_eq, hi.exec_eq]
    exact alike_execFill H h _ f a
  | mvf f d a => exact alike_execMvf H h f d a
  | nop => exact alike_nextAddr_update H h (F := id) id 1
  | cwdt => exact alike_nextAddr_update H h (H.update .cwdt) 1
  | idle => exact alike_nextAddr_update H h (H.update .idle) 1
  | slp => exact alike_nextAddr_update H h (H.update .slp) 1
  | ret sOp => exact (alike_checkOperands H h _ _ _).andThen_eq fun _ => alike_popReturn H h id
  | reti sOp =>
    refine (alike_checkOperands H h _ _ _).andThen_eq fun _ => ?_
    rw [(H.reads h).interruptsModelled]
    split
    · exact alike_popReturn H h (H.update (.gie true))
    · exact alike_refuse H h _
  | retl k => exact (alike_checkOperands H h _ _ _).andThen_eq fun _ => alike_popReturn H h (H.update (.w _))
  | call n sOp =>
    exact (alike_checkOperands H h _ _ _).andThen_eq fun _ => (alike_nextAddr H h 2).andThen_eq fun nxt =>
      (alike_push H h nxt).andThen fun _ _ ht => .next (H.update (.pc _) ht)
  | jmp n => exact (alike_checkOperands H h _ _ _).andThen_eq fun _ => .next (H.update (.pc _) h)

/-! ### The step and the run -/

theorem alike_interruptEntry (h : R s s') : Alike slack R R (interruptEntry s) (interruptEntry s') := by
  unfold interruptEntry
  rw [(H.reads h).pc, (H.reads h).intVector]
  exact (alike_push H h s.pc).andThen fun t t' ht => .next (H.update (.pc _) (H.update (.gie false) ht))

theorem alike_haltedStep (h : R s s') : Alike slack R R (haltedStep s) (haltedStep s') := by
  unfold haltedStep currentInput
  rw [(H.reads h).wakeModelled, (H.reads h).inputs]
  split
  · split
    · exact .next (H.update .wake (H.update .consume h))
    · exact .next (H.update .consume h)
  · exact .next h

theorem alike_fetchExec (hc : s'.c = s.c) (h : R s s') : Alike slack R R (fetchExec s) (fetchExec s') := by
  unfold fetchExec
  rw [(H.reads h).pc]
  exact (alike_fetch H h s.pc).andThen_eq fun i => alike_exec H i (.inr hc) h

theorem alike_boundaryStep (hc : s'.c = s.c) (h : R s s') : Alike slack R R (boundaryStep s) (boundaryStep s') := by
  have same := H.reads h
  have htaken : interruptTaken s' = interruptTaken s := by
    simp only [interruptTaken, currentInput, same.interruptsModelled, same.gie, same.inputs]
  unfold boundaryStep
  rw [same.run]
  cases s.run with
  | running =>
    simp only [runningStep, htaken]
    split
    · exact alike_interruptEntry H (H.update .consume h)
    · exact alike_fetchExec H hc (H.update .consume h)
  | idle | sleep => exact alike_haltedStep H h

theorem alike_step (hc : s'.c = s.c) (h : R s s') : Alike slack R R (step s) (step s') := by
  have same := H.reads h
  unfold step stopOf
  rw [same.refused, same.fault, same.wdtEnabled]
  cases s.refused with
  | some r => exact alike_refuse H h r
  | none =>
    cases s.fault with
    | some r => exact alike_raise H h r
    | none =>
      cases s.cfg.wdtEnabled with
      | true => exact alike_refuse H h _
      | false => exact alike_boundaryStep H hc h

end

theorem run_succ (n : Nat) (s : State) :
    Host.Core.run core (n + 1) s = andThen (step s) (Host.Core.run core n) := by
  refine (Host.Core.run.eq_2 core s n).trans ?_
  change _ = andThen (core.step s) _
  cases core.step s <;> rfl

/-- Runs from related states stay related, where related states agree in C. -/
theorem alike_run {slack : Prop} {R : State → State → Prop} (H : Indistinct slack R)
    (hc : ∀ {s s'}, R s s' → s'.c = s.c) (n : Nat) {s s' : State} (h : R s s') :
    Alike slack R R (Host.Core.run core n s) (Host.Core.run core n s') := by
  induction n generalizing s s' with
  | zero => exact .next h
  | succ n ih =>
    rw [run_succ, run_succ]
    exact (alike_step H (hc h) h).andThen fun _ _ ht => ih ht

/-! ### The three relations -/

/-- The second state is the first with other values of what no instruction reads. -/
def AgreeButUnread (s s' : State) : Prop :=
  ∃ z toFlag idleb pd skerr wdt,
    s' = { s with z := z, toFlag := toFlag, idleb := idleb, pd := pd, skerr := skerr, wdt := wdt }

theorem agreeButUnread_of_unread_eq {s s' : State} (h : unread s = unread s') : AgreeButUnread s s' := by
  refine ⟨s'.z, s'.toFlag, s'.idleb, s'.pd, s'.skerr, s'.wdt, ?_⟩
  obtain ⟨⟩ := s
  obtain ⟨⟩ := s'
  simp only [unread, State.mk.injEq] at h ⊢
  simp [h]

theorem unread_eq_of_agreeButUnread {s s' : State} (h : AgreeButUnread s s') : unread s = unread s' := by
  obtain ⟨_, _, _, _, _, _, rfl⟩ := h
  rfl

theorem indistinct_agreeButUnread : Indistinct False AgreeButUnread where
  reads := by
    rintro s _ ⟨_, _, _, _, _, _, rfl⟩
    constructor <;> rfl
  depth := by
    rintro s _ ⟨_, _, _, _, _, _, rfl⟩
    exact .inl rfl
  update := by
    rintro F hF s _ ⟨_, _, _, _, _, _, rfl⟩
    cases hF <;> exact ⟨_, _, _, _, _, _, rfl⟩

/-- Settles O30: states that agree but for what is unread run alike. -/
theorem nothingReadsZOrPstatus : Obligations.NothingReadsZOrPstatus := by
  intro n s s' h
  have hc : ∀ {s s'}, AgreeButUnread s s' → s'.c = s.c := by
    rintro _ _ ⟨_, _, _, _, _, _, rfl⟩
    rfl
  have hrun := alike_run indistinct_agreeButUnread hc n (agreeButUnread_of_unread_eq h)
  revert hrun
  generalize Host.Core.run core n s = x, Host.Core.run core n s' = x'
  rintro (ht | ⟨r, ht⟩ | ⟨r, ht⟩ | hfalse)
  · exact congrArg (fun t => Host.Outcome.next t) (unread_eq_of_agreeButUnread ht)
  · exact congrArg (fun t => Host.Outcome.fault (Fault.raised r t)) (unread_eq_of_agreeButUnread ht)
  · exact congrArg (fun t => Host.Outcome.refused (Refusal.raised r t)) (unread_eq_of_agreeButUnread ht)
  · exact hfalse.elim

/-- The second state is the first in a machine of stack depth k, which is no smaller. -/
def DeeperBy (k : Nat) (s s' : State) : Prop := s.cfg.stackDepth ≤ k ∧ s' = withDepth s k

theorem indistinct_deeperBy (k : Nat) : Indistinct True (DeeperBy k) where
  reads := by
    rintro s _ ⟨_, rfl⟩
    constructor <;> rfl
  depth := by
    rintro s _ ⟨hk, rfl⟩
    exact .inr ⟨trivial, hk⟩
  update := by
    rintro F hF s _ ⟨hk, rfl⟩
    cases hF <;> exact ⟨hk, rfl⟩

/-- Settles O31: a greater depth matters to a push that overflows alone, and that is a fault. -/
theorem greaterStackDepthIsTheSameRun : Obligations.GreaterStackDepthIsTheSameRun := by
  intro n k s t hk hrun
  have hc : ∀ {s s'}, DeeperBy k s s' → s'.c = s.c := by
    rintro _ _ ⟨_, rfl⟩
    rfl
  have halike := alike_run (indistinct_deeperBy k) hc n ⟨hk, rfl⟩
  rw [hrun] at halike
  generalize Host.Core.run core n (withDepth s k) = x at halike
  obtain ⟨-, rfl⟩ | _ | _ | _ := halike
  rfl

/-- The second state is the first with another value of C. -/
def AgreeButC (s s' : State) : Prop := ∃ b, s' = { s with c := b }

theorem indistinct_agreeButC : Indistinct False AgreeButC where
  reads := by
    rintro s _ ⟨_, rfl⟩
    constructor <;> rfl
  depth := by
    rintro s _ ⟨_, rfl⟩
    exact .inl rfl
  update := by
    rintro F hF s _ ⟨_, rfl⟩
    cases hF <;> exact ⟨_, rfl⟩

/-- An instruction that writes C without reading it writes the same whatever C was. -/
theorem written_c_eq {i : Instr} {s t t' : State} {b : Bool} (hw : writesC i = true) (hr : readsC i = false)
    (h : exec i s = .next t) (h' : exec i { s with c := b } = .next t') : t'.c = t.c := by
  induction i using instr_byTemplate with
  | fda hi f d a =>
    rw [hi.exec_eq, execFda_eq_next] at h h'
    obtain ⟨-, -, -, fv, hread, u, -, rfl⟩ := h
    obtain ⟨-, -, -, fv', hread', u', -, rfl⟩ := h'
    have hsame : memRead s (s.pc + 1#11) f = .next fv' := by
      rw [memRead_eq_next] at hread' ⊢
      exact hread'
    obtain rfl : fv = fv' := by simpa [hread] using hsame
    obtain ⟨v, hv⟩ := hi.writes_c hw fv s.w s.c
    simp only [State.writeFlags_c, hi.ignoresC hr fv s.w b s.c, hv, Option.getD_some]
  | literal hi k =>
    rw [hi.exec_eq, execLiteral_eq_next] at h h'
    obtain ⟨-, -, rfl⟩ := h
    obtain ⟨-, -, rfl⟩ := h'
    obtain ⟨v, hv⟩ := hi.writes_c hw (BitVec.ofNat 8 k) s.w
    simp only [State.writeFlags_c, hv, Option.getD_some]
  | test hi f a => cases hi <;> cases hw
  | count hi f d a => cases hi <;> cases hw
  | bit hi f b a => cases hi <;> cases hw
  | fill hi f a => cases hi <;> cases hw
  | mvf | nop | cwdt | idle | slp | ret | reti | retl | call | jmp => cases hw

/-- Settles O22: the frame of C, and states that agree but for C run alike under an instruction that does not read it. -/
theorem carryWritersAndReaders : Obligations.CarryWritersAndReaders := by
  refine ⟨fun i s t => carry_of_not_writesC, fun i s t b hr h => ?_⟩
  have halike := alike_exec indistinct_agreeButC i (.inl hr) ⟨b, rfl⟩ (s := s)
  rw [h] at halike
  generalize hx : exec i { s with c := b } = x at halike
  obtain ⟨b', rfl⟩ | _ | _ | hfalse := halike
  · have hb : b' = if writesC i then t.c else b := by
      cases hw : writesC i with
      | true => exact written_c_eq hw hr h hx
      | false => exact carry_of_not_writesC hx hw
    rw [hb]

end Sys2Proof.Proofs
end

section
/-! Decoding undoes encoding. First the format a word is read in, then one lemma for each format of
30_encoding.md rules R96 to R102, and the instructions by their format. -/

namespace Sys2Proof.Proofs

/-! ### The format a first word is read in -/

section
variable {w : IWord} (rest : List IWord)

theorem decode_of_formatZS (h : w.toNat / 4096 = 0) : decode (w :: rest) = oneWord w rest (decodeZS w.toNat) := by
  simp only [decode, h]

theorem decode_of_formatK (h : w.toNat / 4096 = 1) :
    decode (w :: rest) = oneWord w rest (decodeK (w.toNat / 256) (w.toNat % 256)) := by
  simp only [decode, h]

theorem decode_of_formatFa (h : w.toNat / 4096 = 2) :
    decode (w :: rest) = oneWord w rest (decodeFa (w.toNat / 512) (w.toNat % 256) (w.toNat / 256 % 2)) := by
  simp only [decode, h]

theorem decode_of_formatFda (hlo : 3 ≤ w.toNat / 4096) (hhi : w.toNat / 4096 ≤ 7) :
    decode (w :: rest) =
      oneWord w rest (decodeFda (w.toNat / 1024) (w.toNat % 256) (w.toNat / 512 % 2) (w.toNat / 256 % 2)) := by
  simp only [decode]
  generalize w.toNat / 4096 = format at hlo hhi
  interval_cases format <;> rfl

theorem decode_of_formatFba (hlo : 8 ≤ w.toNat / 4096) (hhi : w.toNat / 4096 ≤ 12) :
    decode (w :: rest) =
      oneWord w rest (decodeFba (w.toNat / 4096) (w.toNat % 256) (w.toNat / 512 % 8) (w.toNat / 256 % 2)) := by
  simp only [decode]
  generalize w.toNat / 4096 = format at hlo hhi
  interval_cases format <;> rfl

theorem decode_of_call (h : w.toNat / 512 = 0b1101000) :
    decode (w :: rest) = decodeSecondWord (w.toNat % 256) (fun n => .call n (w.toNat / 256 % 2)) rest := by
  have hformat : w.toNat / 4096 = 13 := by omega
  simp only [decode, hformat, if_pos h]

theorem decode_of_jmp (h : w.toNat / 256 = 0b11100000) :
    decode (w :: rest) = decodeSecondWord (w.toNat % 256) .jmp rest := by
  have hformat : w.toNat / 4096 = 14 := by omega
  simp only [decode, hformat, if_pos h]

end

/-! ### The opcodes of each format (rule R103) -/

theorem decodeK_eq_some {op8 k : Nat} {i : Instr} (h : decodeK op8 k = some i) : 16 ≤ op8 ∧ op8 ≤ 22 := by
  unfold decodeK at h
  split at h <;> cases h <;> omega

theorem decodeFa_eq_some {op7 f a : Nat} {i : Instr} (h : decodeFa op7 f a = some i) : 16 ≤ op7 ∧ op7 ≤ 21 := by
  unfold decodeFa at h
  split at h <;> cases h <;> omega

theorem decodeFda_eq_some {op6 f d a : Nat} {i : Instr} (h : decodeFda op6 f d a = some i) : 12 ≤ op6 ∧ op6 ≤ 31 := by
  unfold decodeFda at h
  split at h <;> cases h <;> omega

theorem decodeFba_eq_some {op4 f b a : Nat} {i : Instr} (h : decodeFba op4 f b a = some i) : 8 ≤ op4 ∧ op4 ≤ 12 := by
  unfold decodeFba at h
  split at h <;> cases h <;> omega

/-! ### One lemma for each format -/

section
variable {i : Instr} (rest : List IWord)

theorem decode_encodeK {op8 k : Nat} (hop : decodeK op8 k = some i) (hk : inRangeK k = true) :
    decode (encodeK op8 k ++ rest) = .ok (i, rest) := by
  obtain ⟨hlo, hhi⟩ := decodeK_eq_some hop
  simp only [inRangeK, decide_eq_true_eq] at hk
  have hw : (BitVec.ofNat 16 (op8 * 256 + k)).toNat = op8 * 256 + k := Nat.mod_eq_of_lt (by omega)
  have hop8 : (op8 * 256 + k) / 256 = op8 := by omega
  have hkv : (op8 * 256 + k) % 256 = k := by omega
  rw [encodeK, List.singleton_append, decode_of_formatK rest (by omega), hw, hop8, hkv, hop]
  rfl

theorem decode_encodeFa {op7 f a : Nat} (hop : decodeFa op7 f a = some i) (hfa : inRangeFa f a = true) :
    decode (encodeFa op7 f a ++ rest) = .ok (i, rest) := by
  obtain ⟨hlo, hhi⟩ := decodeFa_eq_some hop
  simp only [inRangeFa, Bool.and_eq_true, decide_eq_true_eq] at hfa
  generalize hv : op7 * 512 + a * 256 + f = v
  have hw : (BitVec.ofNat 16 v).toNat = v := Nat.mod_eq_of_lt (by omega)
  have hop7 : v / 512 = op7 := by omega
  have ha : v / 256 % 2 = a := by omega
  have hf : v % 256 = f := by omega
  rw [encodeFa, hv, List.singleton_append, decode_of_formatFa rest (by omega), hw, hop7, ha, hf, hop]
  rfl

theorem decode_encodeFda {op6 f d a : Nat} (hop : decodeFda op6 f d a = some i) (hfda : inRangeFda f d a = true) :
    decode (encodeFda op6 f d a ++ rest) = .ok (i, rest) := by
  obtain ⟨hlo, hhi⟩ := decodeFda_eq_some hop
  simp only [inRangeFda, Bool.and_eq_true, decide_eq_true_eq] at hfda
  generalize hv : op6 * 1024 + d * 512 + a * 256 + f = v
  have hw : (BitVec.ofNat 16 v).toNat = v := Nat.mod_eq_of_lt (by omega)
  have hop6 : v / 1024 = op6 := by omega
  have hd : v / 512 % 2 = d := by omega
  have ha : v / 256 % 2 = a := by omega
  have hf : v % 256 = f := by omega
  rw [encodeFda, hv, List.singleton_append, decode_of_formatFda rest (by omega) (by omega), hw, hop6, hd, ha, hf, hop]
  rfl

theorem decode_encodeFba {op4 f b a : Nat} (hop : decodeFba op4 f b a = some i) (hfba : inRangeFba f b a = true) :
    decode (encodeFba op4 f b a ++ rest) = .ok (i, rest) := by
  obtain ⟨hlo, hhi⟩ := decodeFba_eq_some hop
  simp only [inRangeFba, Bool.and_eq_true, decide_eq_true_eq] at hfba
  generalize hv : op4 * 4096 + b * 512 + a * 256 + f = v
  have hw : (BitVec.ofNat 16 v).toNat = v := Nat.mod_eq_of_lt (by omega)
  have hop4 : v / 4096 = op4 := by omega
  have hb : v / 512 % 8 = b := by omega
  have ha : v / 256 % 2 = a := by omega
  have hf : v % 256 = f := by omega
  rw [encodeFba, hv, List.singleton_append, decode_of_formatFba rest (by omega) (by omega), hw, hop4, hb, ha, hf, hop]
  rfl

/-- The second word of JMP and CALL gives bits 10:8 of n, the first word bits 7:0 (rules R102 and R104). -/
theorem decodeSecondWord_encoded {n : Nat} (hn : n < 2048) (mk : Nat → Instr) :
    decodeSecondWord (n % 256) mk (BitVec.ofNat 16 (0xF000 + n / 256) :: rest) = .ok (mk n, rest) := by
  have hw : (BitVec.ofNat 16 (0xF000 + n / 256)).toNat = 0xF000 + n / 256 := Nat.mod_eq_of_lt (by omega)
  have hhigh : (0xF000 + n / 256) / 8 = 0b1111000000000 := by omega
  have hn' : (0xF000 + n / 256) % 8 * 256 + n % 256 = n := by omega
  rw [decodeSecondWord, hw, if_pos hhigh, hn']

theorem decode_encode_call {n sOp : Nat} (h : inRangeNs n sOp = true) :
    decode (encode (.call n sOp) ++ rest) = .ok (.call n sOp, rest) := by
  simp only [inRangeNs, Bool.and_eq_true, decide_eq_true_eq] at h
  generalize hv : 0b1101000 * 512 + sOp * 256 + n % 256 = v
  have hw : (BitVec.ofNat 16 v).toNat = v := Nat.mod_eq_of_lt (by omega)
  have hs : v / 256 % 2 = sOp := by omega
  have hlow : v % 256 = n % 256 := by omega
  rw [encode, encodeN2, hv, List.cons_append, List.singleton_append, decode_of_call _ (by omega), hw, hs, hlow,
    decodeSecondWord_encoded rest h.1]

theorem decode_encode_jmp {n : Nat} (h : inRangeN n = true) :
    decode (encode (.jmp n) ++ rest) = .ok (.jmp n, rest) := by
  simp only [inRangeN, decide_eq_true_eq] at h
  generalize hv : 0b1110000 * 512 + 0 * 256 + n % 256 = v
  have hw : (BitVec.ofNat 16 v).toNat = v := Nat.mod_eq_of_lt (by omega)
  have hlow : v % 256 = n % 256 := by omega
  rw [encode, encodeN2, hv, List.cons_append, List.singleton_append, decode_of_jmp _ (by omega), hw, hlow,
    decodeSecondWord_encoded rest h]

theorem decode_encode_ret {sOp : Nat} (h : inRangeS sOp = true) :
    decode (encode (.ret sOp) ++ rest) = .ok (.ret sOp, rest) := by
  simp only [inRangeS, decide_eq_true_eq] at h
  interval_cases sOp <;> rfl

theorem decode_encode_reti {sOp : Nat} (h : inRangeS sOp = true) :
    decode (encode (.reti sOp) ++ rest) = .ok (.reti sOp, rest) := by
  simp only [inRangeS, decide_eq_true_eq] at h
  interval_cases sOp <;> rfl

end

/-- Decoding the words of a well-formed instruction gives it back, and the words after them. -/
theorem decode_encode_append {i : Instr} (h : i.wellFormed = true) (rest : List IWord) :
    decode (encode i ++ rest) = .ok (i, rest) := by
  cases i with
  | nop | cwdt | idle | slp => rfl
  | ret sOp => exact decode_encode_ret rest h
  | reti sOp => exact decode_encode_reti rest h
  | call n sOp => exact decode_encode_call rest h
  | jmp n => exact decode_encode_jmp rest h
  | addl k | andl k | iorl k | mvl k | retl k | subl k | xorl k => exact decode_encodeK rest rfl h
  | clrf f a | cpse f a | cpsg f a | cpsl f a | setf f a | tfsz f a => exact decode_encodeFa rest rfl h
  | subc f d a | subf f d a | swpf f d a | xorf f d a | addc f d a | addf f d a | andf f d a | comf f d a | dcf f d a
  | dcsuz f d a | dcsz f d a | inf f d a | insuz f d a | insz f d a | iorf f d a | mvf f d a | rlf f d a | rlfc f d a
  | rrf f d a | rrfc f d a => exact decode_encodeFda rest rfl h
  | bcf f b a | bsf f b a | btgf f b a | btss f b a | btsz f b a => exact decode_encodeFba rest rfl h

end Sys2Proof.Proofs
end

section
/-! The program slot and the boundary at which it is executed (20_memory.md rule R70), and the frame of data memory. -/

namespace Sys2Proof.Proofs

open Sys2Proof.Machine Sys2Proof.Statement

theorem encode_length (i : Instr) : (encode i).length = i.words := by cases i <;> rfl

theorem words_eq_one_or_two (i : Instr) : i.words = 1 ∨ i.words = 2 := by cases i <;> simp [Instr.words]

/-- The words ws stand in program memory one after the other from the address a on. -/
def StandsAt (s : State) (a : Nat) (ws : List IWord) : Prop :=
  ∀ n (w : IWord), ws[n]? = some w → Memory.read s.prog (a + n) = some w

theorem StandsAt.progWord_eq {s : State} {a n : Nat} {ws : List IWord} {w : IWord} (h : StandsAt s a ws)
    (hfit : a + ws.length ≤ progSize) (hw : ws[n]? = some w) : progWord s (a + n) = some w := by
  have hn : n < ws.length := (List.getElem?_eq_some_iff.mp hw).1
  exact (if_pos (by omega)).trans (h n w hw)

/-- One or two words that stand at an address are the first that the slot there is read from. -/
theorem StandsAt.slotWords_eq {s : State} {a : Nat} {ws : List IWord} (h : StandsAt s a ws)
    (hfit : a + ws.length ≤ progSize) (hlen : ws.length = 1 ∨ ws.length = 2) : ∃ rest, slotWords s a = ws ++ rest := by
  match ws, hlen with
  | [w], _ =>
    have hfirst : progWord s a = some w := h.progWord_eq hfit (n := 0) rfl
    cases hsecond : progWord s (a + 1) with
    | none => exact ⟨[], by simp [slotWords, hfirst, hsecond]⟩
    | some w2 => exact ⟨[w2], by simp [slotWords, hfirst, hsecond]⟩
  | [w, w2], _ =>
    have hfirst : progWord s a = some w := h.progWord_eq hfit (n := 0) rfl
    have hsecond : progWord s (a + 1) = some w2 := h.progWord_eq hfit (n := 1) rfl
    exact ⟨[], by simp [slotWords, hfirst, hsecond]⟩

/-- The slot at which the words of a well-formed instruction stand holds it. -/
theorem slotAt_of_standsAt {s : State} {p : PAddr} {i : Instr} (hi : i.wellFormed = true)
    (hfit : p.toNat + i.words ≤ progSize) (h : StandsAt s p.toNat (encode i)) : slotAt s p = .ok i := by
  rw [← encode_length] at hfit
  obtain ⟨rest, hrest⟩ := h.slotWords_eq hfit (encode_length i ▸ words_eq_one_or_two i)
  simp only [slotAt, hrest, decode_encode_append hi]

/-! ### A boundary at which no interrupt is taken -/

theorem interruptTaken_iff {s : State} : interruptTaken s = true ↔ Requested s := by
  unfold interruptTaken Requested currentInput
  cases s.inputs <;> simp [and_assoc]

/-- Without an interrupt, a step of a running state fetches and executes (rule R251). -/
theorem step_of_not_requested {s : State} (hs : Stepped s) (hrun : s.run = .running) (hno : ¬ Requested s) :
    step s = fetchExec s.consume := by
  have hnot : ¬ interruptTaken s = true := fun h => hno (interruptTaken_iff.mp h)
  rw [step_of_stepped hs, boundaryStep, hrun]
  exact if_neg hnot

theorem slotAt_consume (s : State) (p : PAddr) : slotAt s.consume p = slotAt s p := rfl

/-- Settles O7: the fetch answers the instruction of the slot. -/
theorem stepExecutesTheDecodedInstruction : Obligations.StepExecutesTheDecodedInstruction := by
  intro s i hs hrun hno hslot
  have hfetch : fetch s.consume s.pc = .next i := fetch_eq_next.mpr hslot
  rw [step_of_not_requested hs hrun hno, fetchExec, State.consume_pc, hfetch, andThen_next]

/-- Settles O8: the slot at pc decodes to the instruction that is encoded there, which O7 says is executed. -/
theorem stepExecutesTheEncodedInstruction : Obligations.StepExecutesTheEncodedInstruction := by
  intro s i hs hrun hgie hi hfit hwords
  have hno : ¬ Requested s := fun ⟨_, hon, _⟩ => absurd (hgie.symm.trans hon) (by decide)
  exact stepExecutesTheDecodedInstruction s i hs hrun hno (slotAt_of_standsAt hi hfit hwords)

theorem fetch_of_error {s : State} {p : PAddr} {e : DecodeError} (h : slotAt s p = .error e) :
    fetch s p = raise s (.badFetch p) := by
  simp only [fetch, h]

/-- Settles O9: the fetch is the fault. -/
theorem emptySlotIsBadFetch : Obligations.EmptySlotIsBadFetch := by
  intro s e hs hrun hno hslot
  have hfetch : fetch s.consume s.pc = raise s.consume (.badFetch s.pc) := fetch_of_error hslot
  rw [step_of_not_requested hs hrun hno, fetchExec, State.consume_pc, hfetch, andThen_raise]
  rfl

/-! ### Data memory -/

/-- Settles O28, by the cases of the effect: a byte is stored at the register f of an instruction that writes f, or none is. -/
theorem ramFrame : Obligations.RamFrame := by
  intro i s t a h hframe
  cases exec_effect h with
  | data w ram c z p _ hram =>
    rcases hram with rfl | ⟨f, v, hwrites, hf, -, rfl⟩
    · rfl
    · have hother : a ≠ f := fun heq => hframe hwrites (heq ▸ hf)
      exact Memory.read_write_other _ _ _ _ hother
  | _ => rfl

end Sys2Proof.Proofs
end

section
/-! The operand checks are what every instruction does first, and what they refuse (rules R62, R94, R201 and R254). -/

namespace Sys2Proof.Proofs

open Sys2Proof.Machine Sys2Proof.Statement

theorem andThen_assoc {α β γ : Type} (x : Res α) (k : α → Res β) (l : β → Res γ) :
    andThen (andThen x k) l = andThen x fun v => andThen (k v) l := by cases x <;> rfl

/-- The operands a and s of an instruction and whether all its operands are in range, as its meaning checks them. -/
structure ChecksOf (i : Instr) (a sOp : Nat) (ok : Bool) : Prop where
  operandA : i.operandA = a
  operandS : i.operandS = sOp
  wellFormed : i.wellFormed = ok

section
variable {mk₁ : Nat → Instr} {mk₂ : Nat → Nat → Instr} {mk₃ : Nat → Nat → Nat → Instr}

theorem FdaInstr.checks {op} (h : FdaInstr mk₃ op) (f d a : Nat) :
    ChecksOf (mk₃ f d a) a 0 (inRangeFda f d a) := by cases h <;> exact ⟨rfl, rfl, rfl⟩

theorem LiteralInstr.checks {op} (h : LiteralInstr mk₁ op) (k : Nat) :
    ChecksOf (mk₁ k) 0 0 (inRangeK k) := by cases h <;> exact ⟨rfl, rfl, rfl⟩

theorem TestInstr.checks {cond ok} (h : TestInstr mk₂ cond ok) (f a : Nat) :
    ChecksOf (mk₂ f a) a 0 (ok f a) := by cases h <;> exact ⟨rfl, rfl, rfl⟩

theorem CountInstr.checks {delta cond} (h : CountInstr mk₃ delta cond) (f d a : Nat) :
    ChecksOf (mk₃ f d a) a 0 (inRangeFda f d a) := by cases h <;> exact ⟨rfl, rfl, rfl⟩

theorem BitInstr.checks {op} (h : BitInstr mk₃ op) (f b a : Nat) :
    ChecksOf (mk₃ f b a) a 0 (inRangeFba f b a) := by cases h <;> exact ⟨rfl, rfl, rfl⟩

theorem FillInstr.checks {v} (h : FillInstr mk₂ v) (f a : Nat) :
    ChecksOf (mk₂ f a) a 0 (inRangeFa f a) := by cases h <;> exact ⟨rfl, rfl, rfl⟩

end

/-- The instruction i checks its operands at s before it does anything else. -/
def ChecksFirst (i : Instr) (s : State) : Prop :=
  ∃ k, exec i s = andThen (checkOperands s i.operandA i.operandS i.wellFormed) k

/-- An instruction that begins as rule R130 says checks its operands first. -/
theorem ChecksOf.checksFirst {i : Instr} {s : State} {a : Nat} {ok : Bool} (hi : ChecksOf i a 0 ok)
    {k : PAddr → Res State} (h : exec i s = andThen (beginOne s a 0 ok) k) : ChecksFirst i s := by
  rw [ChecksFirst, hi.operandA, hi.operandS, hi.wellFormed, h, beginOne, andThen_assoc]
  exact ⟨_, rfl⟩

/-- Every instruction checks its operands first. -/
theorem exec_checksFirst (i : Instr) (s : State) : ChecksFirst i s := by
  induction i using instr_byTemplate with
  | fda hi f d a => exact (hi.checks f d a).checksFirst (hi.exec_eq f d a s)
  | literal hi k => exact (hi.checks k).checksFirst (hi.exec_eq k s)
  | test hi f a => exact (hi.checks f a).checksFirst (hi.exec_eq f a s)
  | count hi f d a => exact (hi.checks f d a).checksFirst (hi.exec_eq f d a s)
  | bit hi f b a => exact (hi.checks f b a).checksFirst (hi.exec_eq f b a s)
  | fill hi f a => exact (hi.checks f a).checksFirst (hi.exec_eq f a s)
  | mvf f d a => exact ChecksOf.checksFirst ⟨rfl, rfl, rfl⟩ (i := .mvf f d a) (a := a) rfl
  | ret | reti | retl | call | jmp => exact ⟨_, rfl⟩
  | nop => exact ⟨fun _ => execNop s, rfl⟩
  | cwdt => exact ⟨fun _ => execCwdt s, rfl⟩
  | idle => exact ⟨fun _ => execIdle s, rfl⟩
  | slp => exact ⟨fun _ => execSlp s, rfl⟩

theorem ChecksFirst.exec_of_refuse {i : Instr} {s : State} (h : ChecksFirst i s) {r : RefusalReason}
    (hr : checkOperands s i.operandA i.operandS i.wellFormed = refuse s r) : exec i s = refuses s r := by
  obtain ⟨k, hk⟩ := h
  rw [hk, hr, andThen_refuse]
  rfl

/-- No instruction has both an operand a and an operand s. -/
theorem operandA_eq_zero_or_operandS_eq_zero (i : Instr) : i.operandA = 0 ∨ i.operandS = 0 := by
  cases i <;> simp [Instr.operandA, Instr.operandS]

/-- Settles O51: the refusal is that of the operand checks, which every instruction makes first. -/
theorem operandRefusals : Obligations.OperandRefusals := by
  intro i s
  have hfirst := exec_checksFirst i s
  refine ⟨fun ha => ?_, fun hs => ?_, fun ha hs hrange => ?_⟩
  · exact hfirst.exec_of_refuse (if_pos ha)
  · have hzero := operandA_eq_zero_or_operandS_eq_zero i
    have ha : i.operandA ≠ 1 := by omega
    exact hfirst.exec_of_refuse (by rw [checkOperands, if_neg ha, if_pos hs])
  · exact hfirst.exec_of_refuse (by rw [checkOperands, if_neg ha, if_neg hs, hrange]; rfl)

end Sys2Proof.Proofs
end

section
/-! Encoding undoes decoding, and the first words of rule R103. A word list is read in one of the formats of rules R96 to R102;
which one is said once, and each statement about words is a case distinction over it. -/

namespace Sys2Proof.Proofs

open Sys2Proof.Machine Sys2Proof.Statement

/-- Settles O1, by the format of the instruction. -/
theorem decodeOfEncodeIsTheInstruction : Obligations.DecodeOfEncodeIsTheInstruction :=
  fun _ rest h => decode_encode_append h rest

/-! ### What a list of words is read as -/

/-- What the number v of a first word is read as when it is one of a one-word instruction (rules R96 to R101), or of none. -/
inductive ReadAs (v : Nat) : Option Instr → Prop where
  | zs (h : v / 4096 = 0) : ReadAs v (decodeZS v)
  | k (h : v / 4096 = 1) : ReadAs v (decodeK (v / 256) (v % 256))
  | fa (h : v / 4096 = 2) : ReadAs v (decodeFa (v / 512) (v % 256) (v / 256 % 2))
  | fda (hlo : 3 ≤ v / 4096) (hhi : v / 4096 ≤ 7) :
    ReadAs v (decodeFda (v / 1024) (v % 256) (v / 512 % 2) (v / 256 % 2))
  | fba (hlo : 8 ≤ v / 4096) (hhi : v / 4096 ≤ 12) :
    ReadAs v (decodeFba (v / 4096) (v % 256) (v / 512 % 8) (v / 256 % 2))
  | reserved (h : 13 ≤ v / 4096) (hcall : v / 512 ≠ 0b1101000) (hjmp : v / 256 ≠ 0b11100000) : ReadAs v none

theorem decode_of_reserved {w : IWord} (rest : List IWord) (h : 13 ≤ w.toNat / 4096) (hcall : w.toNat / 512 ≠ 0b1101000)
    (hjmp : w.toNat / 256 ≠ 0b11100000) : decode (w :: rest) = oneWord w rest none := by
  have hlt : w.toNat / 4096 < 16 := by omega
  simp only [decode, if_neg hcall, if_neg hjmp]
  generalize w.toNat / 4096 = format at h hlt
  interval_cases format <;> rfl

/-- The three ways the decoder reads a word: as the first of CALL, as the first of JMP, or alone. -/
theorem decode_cases (w : IWord) :
    w.toNat / 512 = 0b1101000 ∨ w.toNat / 256 = 0b11100000 ∨
      ∃ o, ReadAs w.toNat o ∧ ∀ rest, decode (w :: rest) = oneWord w rest o := by
  by_cases hcall : w.toNat / 512 = 0b1101000
  · exact .inl hcall
  by_cases hjmp : w.toNat / 256 = 0b11100000
  · exact .inr (.inl hjmp)
  refine .inr (.inr ?_)
  have hformat : w.toNat / 4096 = 0 ∨ w.toNat / 4096 = 1 ∨ w.toNat / 4096 = 2 ∨
      3 ≤ w.toNat / 4096 ∧ w.toNat / 4096 ≤ 7 ∨ 8 ≤ w.toNat / 4096 ∧ w.toNat / 4096 ≤ 12 ∨ 13 ≤ w.toNat / 4096 := by
    omega
  rcases hformat with h | h | h | ⟨hlo, hhi⟩ | ⟨hlo, hhi⟩ | h
  · exact ⟨_, .zs h, fun rest => decode_of_formatZS rest h⟩
  · exact ⟨_, .k h, fun rest => decode_of_formatK rest h⟩
  · exact ⟨_, .fa h, fun rest => decode_of_formatFa rest h⟩
  · exact ⟨_, .fda hlo hhi, fun rest => decode_of_formatFda rest hlo hhi⟩
  · exact ⟨_, .fba hlo hhi, fun rest => decode_of_formatFba rest hlo hhi⟩
  · exact ⟨_, .reserved h hcall hjmp, fun rest => decode_of_reserved rest h hcall hjmp⟩

theorem oneWord_eq_ok {w : IWord} {rest rest' : List IWord} {o : Option Instr} {i : Instr} :
    oneWord w rest o = .ok (i, rest') ↔ o = some i ∧ rest = rest' := by
  cases o <;> simp [oneWord]

theorem decodeSecondWord_eq_ok {low : Nat} {mk : Nat → Instr} {ws rest : List IWord} {i : Instr} :
    decodeSecondWord low mk ws = .ok (i, rest) ↔
      ∃ w2, ws = w2 :: rest ∧ w2.toNat / 8 = 0b1111000000000 ∧ i = mk (w2.toNat % 8 * 256 + low) := by
  cases ws with
  | nil => simp [decodeSecondWord]
  | cons w2 ws =>
    by_cases hw2 : w2.toNat / 8 = 0b1111000000000
    · simp [decodeSecondWord, hw2, eq_comm, and_comm]
    · simp [decodeSecondWord, hw2]

/-! ### Encoding what was read -/

section
variable {i : Instr}

theorem encode_of_decodeZS {v : Nat} (h : decodeZS v = some i) : i.wellFormed = true ∧ encode i = [BitVec.ofNat 16 v] := by
  unfold decodeZS at h
  split at h <;> cases h <;> exact ⟨rfl, rfl⟩

theorem encode_of_decodeK {op8 k : Nat} (h : decodeK op8 k = some i) (hk : inRangeK k = true) :
    i.wellFormed = true ∧ encode i = encodeK op8 k := by
  unfold decodeK at h
  split at h <;> cases h <;> exact ⟨hk, rfl⟩

theorem encode_of_decodeFa {op7 f a : Nat} (h : decodeFa op7 f a = some i) (hfa : inRangeFa f a = true) :
    i.wellFormed = true ∧ encode i = encodeFa op7 f a := by
  unfold decodeFa at h
  split at h <;> cases h <;> exact ⟨hfa, rfl⟩

theorem encode_of_decodeFda {op6 f d a : Nat} (h : decodeFda op6 f d a = some i) (hfda : inRangeFda f d a = true) :
    i.wellFormed = true ∧ encode i = encodeFda op6 f d a := by
  unfold decodeFda at h
  split at h <;> cases h <;> exact ⟨hfda, rfl⟩

theorem encode_of_decodeFba {op4 f b a : Nat} (h : decodeFba op4 f b a = some i) (hfba : inRangeFba f b a = true) :
    i.wellFormed = true ∧ encode i = encodeFba op4 f b a := by
  unfold decodeFba at h
  split at h <;> cases h <;> exact ⟨hfba, rfl⟩

/-- The fields a one-word format cuts out of a word are in range, and side by side they are the word again (rule R104). -/
theorem ReadAs.encode_eq {v : Nat} {o : Option Instr} (h : ReadAs v o) (ho : o = some i) :
    i.wellFormed = true ∧ encode i = [BitVec.ofNat 16 v] := by
  cases h with
  | zs _ => exact encode_of_decodeZS ho
  | k _ =>
    have hv : v / 256 * 256 + v % 256 = v := by omega
    have henc := encode_of_decodeK ho (by simp [inRangeK, Nat.mod_lt])
    rwa [encodeK, hv] at henc
  | fa _ =>
    have hv : v / 512 * 512 + v / 256 % 2 * 256 + v % 256 = v := by omega
    have henc := encode_of_decodeFa ho (by simp only [inRangeFa, Bool.and_eq_true, decide_eq_true_eq]; omega)
    rwa [encodeFa, hv] at henc
  | fda _ _ =>
    have hv : v / 1024 * 1024 + v / 512 % 2 * 512 + v / 256 % 2 * 256 + v % 256 = v := by omega
    have henc := encode_of_decodeFda ho (by simp only [inRangeFda, Bool.and_eq_true, decide_eq_true_eq]; omega)
    rwa [encodeFda, hv] at henc
  | fba _ _ =>
    have hv : v / 4096 * 4096 + v / 512 % 8 * 512 + v / 256 % 2 * 256 + v % 256 = v := by omega
    have henc := encode_of_decodeFba ho (by simp only [inRangeFba, Bool.and_eq_true, decide_eq_true_eq]; omega)
    rwa [encodeFba, hv] at henc
  | reserved => cases ho

/-- Bits 10:8 of n are in the second word and bits 7:0 in the first, so format N2 writes both words again (rule R102). -/
theorem encodeN2_of_words {w w2 : IWord} (hw2 : w2.toNat / 8 = 0b1111000000000) :
    encodeN2 (w.toNat / 512) (w.toNat / 256 % 2) (w2.toNat % 8 * 256 + w.toNat % 256) = [w, w2] := by
  have hfirst : w.toNat / 512 * 512 + w.toNat / 256 % 2 * 256 + (w2.toNat % 8 * 256 + w.toNat % 256) % 256 = w.toNat := by
    omega
  have hsecond : 0xF000 + (w2.toNat % 8 * 256 + w.toNat % 256) / 256 = w2.toNat := by omega
  rw [encodeN2, hfirst, hsecond, BitVec.ofNat_toNat, BitVec.ofNat_toNat, BitVec.setWidth_eq, BitVec.setWidth_eq]

end

/-- Settles O2, by the three ways a word is read. -/
theorem encodeOfDecodeIsTheWords : Obligations.EncodeOfDecodeIsTheWords := by
  intro ws rest i h
  cases ws with
  | nil => cases h
  | cons w ws =>
    rcases decode_cases w with hcall | hjmp | ⟨o, hread, hdecode⟩
    · rw [decode_of_call ws hcall, decodeSecondWord_eq_ok] at h
      obtain ⟨w2, rfl, hw2, rfl⟩ := h
      have hwords := encodeN2_of_words (w := w) hw2
      rw [hcall] at hwords
      refine ⟨?_, congrArg (· ++ rest) hwords⟩
      simp only [Instr.wellFormed, inRangeNs, Bool.and_eq_true, decide_eq_true_eq]
      omega
    · rw [decode_of_jmp ws hjmp, decodeSecondWord_eq_ok] at h
      obtain ⟨w2, rfl, hw2, rfl⟩ := h
      have hwords := encodeN2_of_words (w := w) hw2
      rw [(by omega : w.toNat / 512 = 0b1110000), (by omega : w.toNat / 256 % 2 = 0)] at hwords
      refine ⟨?_, congrArg (· ++ rest) hwords⟩
      simp only [Instr.wellFormed, inRangeN, decide_eq_true_eq]
      omega
    · obtain ⟨ho, rfl⟩ := oneWord_eq_ok.mp (hdecode ws ▸ h)
      obtain ⟨hwf, henc⟩ := hread.encode_eq ho
      refine ⟨hwf, ?_⟩
      rw [henc, BitVec.ofNat_toNat, BitVec.setWidth_eq, List.singleton_append]

/-! ### First words and reserved words (rules R103 and R106) -/

theorem eq_none_iff_not {o : Option Instr} {P : Prop} (hsome : ∀ {i}, o = some i → P) (hne : P → o ≠ none) :
    o = none ↔ ¬ P := by
  cases o with
  | none => simpa using hne
  | some i => simpa using hsome rfl

theorem decodeZS_eq_some {v : Nat} {i : Instr} (h : decodeZS v = some i) : v ≤ 3 ∨ 16 ≤ v ∧ v ≤ 19 := by
  unfold decodeZS at h
  split at h <;> cases h <;> omega

theorem decodeZS_eq_none_iff {v : Nat} : decodeZS v = none ↔ ¬ (v ≤ 3 ∨ 16 ≤ v ∧ v ≤ 19) := by
  refine eq_none_iff_not decodeZS_eq_some ?_
  rintro (h | ⟨hlo, hhi⟩) <;> interval_cases v <;> nofun

theorem decodeK_eq_none_iff {op8 k : Nat} : decodeK op8 k = none ↔ ¬ (16 ≤ op8 ∧ op8 ≤ 22) :=
  eq_none_iff_not decodeK_eq_some fun ⟨hlo, hhi⟩ => by interval_cases op8 <;> nofun

theorem decodeFa_eq_none_iff {op7 f a : Nat} : decodeFa op7 f a = none ↔ ¬ (16 ≤ op7 ∧ op7 ≤ 21) :=
  eq_none_iff_not decodeFa_eq_some fun ⟨hlo, hhi⟩ => by interval_cases op7 <;> nofun

theorem decodeFda_eq_none_iff {op6 f d a : Nat} : decodeFda op6 f d a = none ↔ ¬ (12 ≤ op6 ∧ op6 ≤ 31) :=
  eq_none_iff_not decodeFda_eq_some fun ⟨hlo, hhi⟩ => by interval_cases op6 <;> nofun

theorem decodeFba_eq_none_iff {op4 f b a : Nat} : decodeFba op4 f b a = none ↔ ¬ (8 ≤ op4 ∧ op4 ≤ 12) :=
  eq_none_iff_not decodeFba_eq_some fun ⟨hlo, hhi⟩ => by interval_cases op4 <;> nofun

/-- Read alone, exactly the words of the seven ranges of rule R106 are no instruction. -/
theorem ReadAs.eq_none_iff {v : Nat} {o : Option Instr} (h : ReadAs v o) (hv : v < 65536) :
    o = none ↔ reservedWord v := by
  unfold reservedWord
  cases h with
  | zs _ => rw [decodeZS_eq_none_iff]; omega
  | k _ => rw [decodeK_eq_none_iff]; omega
  | fa _ => rw [decodeFa_eq_none_iff]; omega
  | fda _ _ => rw [decodeFda_eq_none_iff]; omega
  | fba _ _ => rw [decodeFba_eq_none_iff]; omega
  | reserved _ _ _ => simp only [true_iff]; omega

/-- A reserved word is rejected by name, whatever stands after it. -/
theorem decode_of_reservedWord {w : IWord} (h : reservedWord w.toNat) (rest : List IWord) :
    decode (w :: rest) = .error (.reserved w) := by
  rcases decode_cases w with hcall | hjmp | ⟨o, hread, hdecode⟩
  · unfold reservedWord at h; omega
  · unfold reservedWord at h; omega
  · rw [hdecode, (hread.eq_none_iff w.isLt).mpr h]
    rfl

/-- Every other word starts an instruction; the second word 0xF000 completes JMP and CALL. -/
theorem decode_of_not_reservedWord {w : IWord} (h : ¬ reservedWord w.toNat) :
    ∃ i rest, decode [w, 0xF000] = .ok (i, rest) := by
  rcases decode_cases w with hcall | hjmp | ⟨o, hread, hdecode⟩
  · exact ⟨_, _, decode_of_call _ hcall⟩
  · exact ⟨_, _, decode_of_jmp _ hjmp⟩
  · cases o with
    | none => exact absurd ((hread.eq_none_iff w.isLt).mp rfl) h
    | some i => exact ⟨i, _, hdecode _⟩

theorem decode_isOk_iff_not_reservedWord {w : IWord} :
    (∃ i rest, decode [w, 0xF000] = .ok (i, rest)) ↔ ¬ reservedWord w.toNat := by
  refine ⟨fun ⟨i, rest, h⟩ hres => ?_, decode_of_not_reservedWord⟩
  rw [decode_of_reservedWord hres] at h
  cases h

/-! ### The opcode map (rule R103) -/

/-- Masking the low k bits of a word off leaves the opcode above them. -/
theorem and_mask_eq_iff {k op : Nat} (hop : op * 2 ^ k < 65536) (w : IWord) :
    w &&& BitVec.allOnes 16 <<< k = BitVec.ofNat 16 (op * 2 ^ k) ↔ w.toNat / 2 ^ k = op := by
  have hle : w.toNat / 2 ^ k * 2 ^ k < 65536 := (Nat.div_mul_le_self _ _).trans_lt w.isLt
  have hmask : (w &&& BitVec.allOnes 16 <<< k).toNat = w.toNat / 2 ^ k * 2 ^ k := by
    rw [← BitVec.shiftLeft_ushiftRight, BitVec.toNat_shiftLeft, BitVec.toNat_ushiftRight, Nat.shiftRight_eq_div_pow,
      Nat.shiftLeft_eq, Nat.mod_eq_of_lt hle]
  rw [← BitVec.toNat_inj, hmask, BitVec.toNat_ofNat, Nat.mod_eq_of_lt hop,
    Nat.mul_left_inj (Nat.two_pow_pos k).ne']

/-- The row of a format whose operands take the low k bits, for the opcode op above them. -/
def formatRow (k op : Nat) : IWord × IWord := (BitVec.ofNat 16 (op * 2 ^ k), BitVec.allOnes 16 <<< k)

theorem rowMatches_formatRow {k op : Nat} (hop : op * 2 ^ k < 65536) (w : IWord) :
    rowMatches (formatRow k op) w = true ↔ w.toNat / 2 ^ k = op :=
  beq_iff_eq.trans (and_mask_eq_iff hop w)

/-- The rows of the n opcodes from op on, in one format. -/
def formatRows (k op n : Nat) : List (IWord × IWord) := (List.range' op n).map (formatRow k)

theorem exists_mem_formatRows_iff {k op n : Nat} (hop : (op + n) * 2 ^ k ≤ 65536) (w : IWord) :
    (∃ r ∈ formatRows k op n, rowMatches r w = true) ↔ op ≤ w.toNat / 2 ^ k ∧ w.toNat / 2 ^ k < op + n := by
  have hfits : ∀ {x}, x < op + n → x * 2 ^ k < 65536 := fun hx =>
    (Nat.mul_lt_mul_of_pos_right hx (Nat.two_pow_pos k)).trans_le hop
  simp only [formatRows, List.mem_map, exists_exists_and_eq_and, List.mem_range'_1]
  constructor
  · rintro ⟨x, ⟨hlo, hhi⟩, hx⟩
    rw [rowMatches_formatRow (hfits hhi)] at hx
    omega
  · rintro ⟨hlo, hhi⟩
    exact ⟨_, ⟨hlo, hhi⟩, (rowMatches_formatRow (hfits hhi) w).mpr rfl⟩

/-- The opcode map by its formats: Z, S, K, FA, FDA, FBA, CALL and JMP. -/
theorem opcodeRows_eq_formatRows :
    opcodeRows = formatRows 0 0 4 ++ formatRows 1 8 2 ++ formatRows 8 16 7 ++ formatRows 9 16 6 ++ formatRows 10 12 20 ++
      formatRows 12 8 5 ++ formatRows 9 0b1101000 1 ++ formatRows 8 0b11100000 1 := by
  decide

/-- The reserved ranges are what the opcode map leaves out. -/
theorem rowMatches_iff_not_reservedWord (w : IWord) :
    (∃ r ∈ opcodeRows, rowMatches r w = true) ↔ ¬ reservedWord w.toNat := by
  rw [opcodeRows_eq_formatRows]
  simp only [List.mem_append, or_and_right, exists_or]
  iterate 8 rw [exists_mem_formatRows_iff (by decide)]
  have hw := w.isLt
  unfold reservedWord
  omega

/-- Some bit that both masks keep is different in the two matches. -/
def RowsClash (r r' : IWord × IWord) : Prop := r.1 &&& (r.2 &&& r'.2) ≠ r'.1 &&& (r.2 &&& r'.2)

theorem and_mask_and_both (w m m' : IWord) : w &&& m &&& (m &&& m') = w &&& (m &&& m') := by
  rw [BitVec.and_assoc, ← BitVec.and_assoc m, BitVec.and_self]

theorem RowsClash.not_both {r r' : IWord × IWord} (h : RowsClash r r') {w : IWord} (hr : rowMatches r w = true)
    (hr' : rowMatches r' w = true) : False := by
  simp only [rowMatches, beq_iff_eq] at hr hr'
  refine h ?_
  rw [← hr, ← hr', and_mask_and_both, BitVec.and_comm r.2, and_mask_and_both]

theorem opcodeRows_clash : opcodeRows.Pairwise RowsClash := by
  unfold RowsClash
  decide

theorem length_filter_rowMatches_le_one {rows : List (IWord × IWord)} (h : rows.Pairwise RowsClash) (w : IWord) :
    (rows.filter (fun r => rowMatches r w)).length ≤ 1 := by
  have hfilter := h.filter (fun r => rowMatches r w)
  have hmatch : ∀ r ∈ rows.filter (fun r => rowMatches r w), rowMatches r w = true := fun r hr => (List.mem_filter.mp hr).2
  match rows.filter (fun r => rowMatches r w), hfilter, hmatch with
  | [], _, _ | [_], _, _ => simp
  | r :: r' :: _, hclash, hmatch =>
    have hrr' : RowsClash r r' := List.rel_of_pairwise_cons hclash (by simp)
    exact (hrr'.not_both (hmatch r (by simp)) (hmatch r' (by simp))).elim

/-- Settles O3: both sides say that the word is not reserved, and two rows of the map always clash. -/
theorem opcodeRowsAreTheFirstWords : Obligations.OpcodeRowsAreTheFirstWords := fun w =>
  ⟨decode_isOk_iff_not_reservedWord.trans (rowMatches_iff_not_reservedWord w).symm,
    length_filter_rowMatches_le_one opcodeRows_clash w⟩

/-! ### The fetch of a reserved word -/

theorem slotWords_of_progWord {s : State} {a : Nat} {w : IWord} (h : progWord s a = some w) :
    ∃ rest, slotWords s a = w :: rest := by
  cases hsecond : progWord s (a + 1) with
  | none => exact ⟨[], by simp [slotWords, h, hsecond]⟩
  | some w2 => exact ⟨[w2], by simp [slotWords, h, hsecond]⟩

theorem slotAt_of_reservedWord {s : State} {p : PAddr} {w : IWord} (hword : progWord s p.toNat = some w)
    (h : reservedWord w.toNat) : slotAt s p = .error (.reserved w) := by
  obtain ⟨rest, hrest⟩ := slotWords_of_progWord hword
  simp only [slotAt, hrest, decode_of_reservedWord h]

/-- Settles O4: the slot does not decode, which O9 says is BadFetch. -/
theorem reservedWordIsBadFetch : Obligations.ReservedWordIsBadFetch := by
  intro s w hs hrun hgie hword hres
  have hno : ¬ Requested s := fun ⟨_, hon, _⟩ => absurd (hgie.symm.trans hon) (by decide)
  exact emptySlotIsBadFetch s _ hs hrun hno (slotAt_of_reservedWord hword hres)

/-! ### The second word of JMP and CALL (rules R102 and R105) -/

theorem secondWord_iff (w2 : IWord) : w2 &&& 0xFFF8 = 0xF000 ↔ w2.toNat / 8 = 0b1111000000000 :=
  and_mask_eq_iff (k := 3) (op := 0b1111000000000) (by decide) w2

theorem decodeSecondWord_bad {low : Nat} {mk : Nat → Instr} {w2 : IWord} (h : w2 &&& 0xFFF8 ≠ 0xF000) (rest : List IWord) :
    decodeSecondWord low mk (w2 :: rest) = .error (.badSecondWord w2) :=
  if_neg ((secondWord_iff w2).not.mp h)

/-- The first words of JMP and CALL are read with the word after them, as an instruction of two words. -/
theorem decode_of_twoWords {w : IWord} (h : w.toNat / 512 = 0x68 ∨ w.toNat / 256 = 0xE0) :
    ∃ mk : Nat → Instr, (∀ n, (mk n).words = 2) ∧
      ∀ rest, decode (w :: rest) = decodeSecondWord (w.toNat % 256) mk rest :=
  h.elim (fun hcall => ⟨_, fun _ => rfl, fun rest => decode_of_call rest hcall⟩)
    fun hjmp => ⟨_, fun _ => rfl, fun rest => decode_of_jmp rest hjmp⟩

/-- Settles O5, for JMP and CALL at once. -/
theorem secondWordIsChecked : Obligations.SecondWordIsChecked := by
  intro w w2 rest h
  obtain ⟨mk, hwords, hdecode⟩ := decode_of_twoWords h
  refine ⟨?_, fun hbad => (hdecode _).trans (decodeSecondWord_bad hbad rest), hdecode []⟩
  simp only [hdecode, decodeSecondWord_eq_ok, secondWord_iff]
  constructor
  · rintro ⟨i, ⟨w2', heq, hhigh, -⟩, -⟩
    obtain ⟨rfl, -⟩ := List.cons.inj heq
    exact hhigh
  · exact fun hhigh => ⟨_, ⟨w2, rfl, hhigh, rfl⟩, hwords _⟩

/-- Settles O6: each word is read in its format, and the fields are the operands. -/
theorem wordsWrittenOutDecode : Obligations.WordsWrittenOutDecode :=
  ⟨decode_of_formatFda [] (by decide) (by decide), decode_of_formatFda [] (by decide) (by decide),
    decode_of_formatK [] (by decide), decode_of_formatFa [] (by decide),
    decode_of_formatFba [] (by decide) (by decide), decode_of_jmp [0b1111000000000001] (by decide),
    decode_of_formatZS [] (by decide)⟩

end Sys2Proof.Proofs
end

section
/-! The arithmetic and logic on a file register (40_byte_arith_logic.md) and the rotates, in the terms of the statements.
First the operand f and the destination, once for every instruction; then the value, C and Z of each function of the unit;
the statements put the two together. -/

namespace Sys2Proof.Proofs

open Sys2Proof.Machine Sys2Proof.Statement

/-! ### Reading and storing a register, in the statements' terms -/

theorem toNat_append_eq {m n : Nat} (x : BitVec m) (y : BitVec n) : (x ++ y).toNat = x.toNat * 2 ^ n + y.toNat := by
  rw [BitVec.toNat_append, ← Nat.shiftLeft_add_eq_or_of_lt y.isLt, Nat.shiftLeft_eq]

/-- Rule R44: PCLATL reads as the low byte of `next`. -/
theorem toNat_pclatlRead (nxt : PAddr) : (pclatlRead nxt).toNat = nxt.toNat % 256 := BitVec.toNat_setWidth 8 nxt

/-- Rule R45: a write to PCLATL keeps the 256-word page of `next`. -/
theorem toNat_pclatlTarget (nxt : PAddr) (v : Byte) : (pclatlTarget nxt v).toNat = nxt.toNat / 256 * 256 + v.toNat := by
  have hn := nxt.isLt
  rw [pclatlTarget, toNat_append_eq, BitVec.extractLsb'_toNat, Nat.shiftRight_eq_div_pow]
  omega

theorem toNat_succ_of_ne {p : PAddr} (h : p ≠ 0x7FF#11) : (p + 1#11).toNat = p.toNat + 1 := by bv_omega

section
variable {s : State} {f d : Nat} {fv v : Byte} {p : PAddr}

theorem memRead_of_holds (hpc : s.pc ≠ 0x7FF#11) (h : Holds s f fv) : memRead s (s.pc + 1#11) f = .next fv := by
  rw [memRead_eq_next]
  rcases h with ⟨hf, hfv⟩ | ⟨hf, hfv⟩ | ⟨hf, hread⟩
  · exact .inl ⟨dataClass_wreg_iff.mpr hf, hfv⟩
  · refine .inr (.inl ⟨dataClass_of_isPclatl hf, BitVec.eq_of_toNat_eq ?_⟩)
    rw [hfv, toNat_pclatlRead, toNat_succ_of_ne hpc]
  · exact .inr (.inr ⟨dataClass_of_plainRam hf, hread⟩)

theorem holds_of_plainRam (hf : PlainRam s.cfg f) (hread : Memory.read s.ram f = some fv) : Holds s f fv :=
  .inr (.inr ⟨hf, hread⟩)

theorem writable_of_holds (h : Holds s f fv) : Writable s.cfg f :=
  h.imp And.left (Or.imp And.left And.left)

theorem stored_of_plainRam (hf : PlainRam s.cfg f) : stored s f v p = { s with ram := Memory.write s.ram f v, pc := p } := by
  obtain ⟨hwreg, hpclatl, -, -⟩ := hf
  simp [stored, hwreg, hpclatl]

theorem memWrite_of_writable (hpc : s.pc ≠ 0x7FF#11) (hf : Writable s.cfg f) (v : Byte) (p : PAddr) :
    memWrite s (s.pc + 1#11) p f v = .next (stored s f v p) := by
  rw [memWrite_eq_next]
  rcases hf with rfl | ⟨hwreg, hpclatl⟩ | hf
  · exact .inl ⟨dataClass_wreg_iff.mpr rfl, by simp [stored, State.setW, State.setPc]⟩
  · have htarget : pclatlTarget (s.pc + 1#11) v = BitVec.ofNat 11 ((s.pc.toNat + 1) / 256 * 256 + v.toNat) := by
      refine BitVec.eq_of_toNat_eq ?_
      rw [toNat_pclatlTarget, toNat_succ_of_ne hpc, BitVec.toNat_ofNat]
      bv_omega
    exact .inr (.inl ⟨dataClass_of_isPclatl ⟨hwreg, hpclatl⟩, by simp [stored, hwreg, hpclatl, State.setPc, htarget]⟩)
  · exact .inr (.inr ⟨dataClass_of_plainRam hf, by rw [stored_of_plainRam hf]; rfl⟩)

theorem writeDest_of_writable (hpc : s.pc ≠ 0x7FF#11) (hf : Writable s.cfg f) (d : Nat) (v : Byte) (p : PAddr) :
    writeDest s (s.pc + 1#11) p f d v = .next (toDest s f d v p) := by
  unfold writeDest toDest
  split
  · rfl
  · exact memWrite_of_writable hpc hf v p

/-- A result goes to W, to RAM or to pc: no other field depends on it. -/
theorem toDest_eq (s : State) (f d : Nat) (v : Byte) (p : PAddr) :
    ∃ w ram q, toDest s f d v p = { s with w := w, ram := ram, pc := q } := by
  unfold toDest stored
  split
  · exact ⟨v, s.ram, p, rfl⟩
  · split
    · exact ⟨v, s.ram, p, rfl⟩
    · split
      · exact ⟨s.w, s.ram, _, rfl⟩
      · exact ⟨s.w, _, p, rfl⟩

@[simp] theorem toDest_c : (toDest s f d v p).c = s.c := by
  obtain ⟨w, ram, q, h⟩ := toDest_eq s f d v p
  rw [h]

@[simp] theorem toDest_z : (toDest s f d v p).z = s.z := by
  obtain ⟨w, ram, q, h⟩ := toDest_eq s f d v p
  rw [h]

end

/-- An instruction of the template of rule R130 does to a register that can be read what its function of the register, W and
C says. -/
theorem FdaInstr.fdaResult {mk : Nat → Nat → Nat → Instr} {op : Byte → Byte → Bool → AluResult}
    {value : Byte → State → Byte} {c z : Byte → State → Bool} (h : FdaInstr mk op)
    (hvalue : ∀ fv s, (op fv s.w s.c).value = value fv s) (hc : ∀ fv s, (op fv s.w s.c).c.getD s.c = c fv s)
    (hz : ∀ fv s, (op fv s.w s.c).z.getD s.z = z fv s) : FdaResult mk value c z := by
  intro s f d fv hf hd hpc hholds
  rw [h.exec_eq, execFda_eq_next]
  refine ⟨by decide, by simp [inRangeFda, hf, hd], toNat_succ_lt_of_ne hpc, fv, memRead_of_holds hpc hholds, _,
    writeDest_of_writable hpc (writable_of_holds hholds) d _ _, ?_⟩
  simp [State.writeFlags, State.setCZ, hvalue, hc, hz]

/-! ### Addition and subtraction (rule R141) -/

theorem zeroFlag_ofNat (n : Nat) : zeroFlag (BitVec.ofNat 8 n) = decide (n % 256 = 0) := by
  rw [zeroFlag, decide_eq_decide, BitVec.toNat_eq, BitVec.toNat_ofNat]
  rfl

section
variable (x y : Byte) (b : Bool)

theorem addResult_value : (addResult x y b).value = BitVec.ofNat 8 (x.toNat + y.toNat + b.toNat) := rfl

theorem addResult_c : (addResult x y b).c = some (decide (256 ≤ x.toNat + y.toNat + b.toNat)) := rfl

theorem addResult_z : (addResult x y b).z = some (zeroFlag (addResult x y b).value) := rfl

theorem addResult_comm : addResult x y b = addResult y x b := by
  simp only [addResult, Nat.add_comm x.toNat]

theorem addResult_value_false : (addResult x y false).value = x + y := by
  rw [addResult_value]
  bv_omega

/-- The complement of the subtrahend is its negation less one, which the carry in makes up for. -/
theorem subResult_value : (subResult x y b).value = x - y - (if b then 0#8 else 1#8) := by
  rw [subResult, addResult_value]
  cases b
  · rw [if_neg (by decide)]; bv_omega
  · rw [if_pos rfl]; bv_omega

theorem subResult_value_true : (subResult x y true).value = x - y := by
  rw [subResult_value, if_pos rfl, BitVec.sub_zero]

theorem subResult_value_false : (subResult x y false).value = x - y - 1#8 := by
  rw [subResult_value, if_neg (by decide)]

theorem subResult_c : (subResult x y b).c = some (decide (y.toNat + (if b then 0 else 1) ≤ x.toNat)) := by
  rw [subResult, addResult_c, Option.some_inj, decide_eq_decide]
  cases b
  · rw [if_neg (by decide)]; bv_omega
  · rw [if_pos rfl]; bv_omega

theorem subResult_z : (subResult x y b).z = some (zeroFlag (subResult x y b).value) := rfl

end

/-- Settles O32: the three are `addResult`, whose value is the exact sum modulo 256. -/
theorem additionResults : Obligations.AdditionResults :=
  ⟨FdaInstr.addc.fdaResult
      (hvalue := fun fv s => by rw [addResult_comm, addResult_value])
      (hc := fun fv s => by rw [addResult_comm, addResult_c]; rfl)
      (hz := fun fv s => by rw [addResult_comm, addResult_z, addResult_value, zeroFlag_ofNat]; rfl),
    FdaInstr.addf.fdaResult
      (hvalue := fun fv s => by rw [addResult_comm, addResult_value_false])
      (hc := fun fv s => by rw [addResult_comm, addResult_c]; rfl)
      (hz := fun fv s => by rw [addResult_comm, addResult_z, addResult_value_false]; rfl),
    FdaInstr.inf.fdaResult
      (hvalue := fun fv _ => addResult_value_false fv 1)
      (hc := fun fv _ => by rw [addResult_c, Option.getD_some, decide_eq_decide]; bv_omega)
      (hz := fun fv _ => by
        rw [addResult_z, addResult_value_false, Option.getD_some, zeroFlag, decide_eq_decide]; bv_omega)⟩

/-- DCF adds 255 (rule R135), the complement of 0 without a carry in. -/
theorem addResult_minusOne (x : Byte) : addResult x 0xFF false = subResult x 0#8 false := rfl

/-- Settles O33: the three are `subResult`, DCF with a subtrahend 0 and a borrow in. -/
theorem subtractionResults : Obligations.SubtractionResults :=
  ⟨FdaInstr.subc.fdaResult
      (hvalue := fun fv s => subResult_value fv s.w s.c)
      (hc := fun fv s => by rw [subResult_c]; rfl)
      (hz := fun fv s => by rw [subResult_z, subResult_value]; rfl),
    FdaInstr.subf.fdaResult
      (hvalue := fun fv s => subResult_value_true fv s.w)
      (hc := fun fv s => by rw [subResult_c]; rfl)
      (hz := fun fv s => by
        rw [subResult_z, subResult_value_true, Option.getD_some, zeroFlag, decide_eq_decide]; bv_omega),
    FdaInstr.dcf.fdaResult
      (hvalue := fun fv _ => by rw [addResult_minusOne, subResult_value_false, BitVec.sub_zero])
      (hc := fun fv _ => by
        rw [addResult_minusOne, subResult_c, Option.getD_some, decide_eq_decide, if_neg (by decide)]; bv_omega)
      (hz := fun fv _ => by
        rw [addResult_minusOne, subResult_z, subResult_value_false, Option.getD_some, zeroFlag, decide_eq_decide]
        bv_omega)⟩

/-! ### Logic -/

/-- Settles O34: the four are `logicResult`, which keeps C. -/
theorem logicResults : Obligations.LogicResults :=
  ⟨FdaInstr.andf.fdaResult (fun _ _ => rfl) (fun _ _ => rfl) (fun _ _ => rfl),
    FdaInstr.comf.fdaResult
      (hvalue := fun fv _ => show ~~~fv = BitVec.ofNat 8 (255 - fv.toNat) by bv_omega)
      (hc := fun _ _ => rfl)
      (hz := fun fv _ => decide_eq_decide.mpr (show ~~~fv = 0#8 ↔ fv = 255#8 by bv_omega)),
    FdaInstr.iorf.fdaResult (fun _ _ => rfl) (fun _ _ => rfl) (fun _ _ => decide_eq_decide.mpr BitVec.or_eq_zero_iff),
    FdaInstr.xorf.fdaResult (fun _ _ => rfl) (fun _ _ => rfl) (fun _ _ => decide_eq_decide.mpr BitVec.xor_eq_zero_iff)⟩

/-! ### Exchanges and rotates -/

section
variable (x : Byte) (b : Bool)

theorem swapNibbles_value : (swapNibbles x).value = BitVec.ofNat 8 (x.toNat % 16 * 16 + x.toNat / 16) := by
  have hhigh : x.toNat / 16 < 16 := by omega
  refine BitVec.eq_of_toNat_eq ?_
  change (x.extractLsb' 0 4 ++ x.extractLsb' 4 4 : Byte).toNat = _
  rw [toNat_append_eq, BitVec.extractLsb'_toNat, BitVec.extractLsb'_toNat, BitVec.toNat_ofNat, Nat.shiftRight_zero,
    Nat.shiftRight_eq_div_pow, Nat.mod_eq_of_lt (b := 2 ^ 8) (by omega), Nat.mod_eq_of_lt (a := x.toNat / 2 ^ 4) (by omega)]
  rfl

theorem rotateLeftCarry_value : (rotateLeftCarry x b).value = BitVec.ofNat 8 (x.toNat % 128 * 2 + b.toNat) := by
  have hb := b.toNat_lt
  refine BitVec.eq_of_toNat_eq ?_
  change (x.extractLsb' 0 7 ++ BitVec.ofBool b : Byte).toNat = _
  rw [toNat_append_eq, BitVec.extractLsb'_toNat, BitVec.toNat_ofBool, BitVec.toNat_ofNat, Nat.shiftRight_zero]
  omega

theorem rotateRightCarry_value : (rotateRightCarry x b).value = BitVec.ofNat 8 (b.toNat * 128 + x.toNat / 2) := by
  have hb := b.toNat_lt
  refine BitVec.eq_of_toNat_eq ?_
  change (BitVec.ofBool b ++ x.extractLsb' 1 7 : Byte).toNat = _
  rw [toNat_append_eq, BitVec.extractLsb'_toNat, BitVec.toNat_ofBool, BitVec.toNat_ofNat, Nat.shiftRight_eq_div_pow]
  omega

theorem rotateLeft_value : (rotateLeft x).value = BitVec.ofNat 8 (x.toNat % 128 * 2 + x.toNat / 128) := by
  have hx := x.isLt
  have hshift : x.toNat <<< 1 % 2 ^ 8 = (x.toNat % 128) <<< 1 := by omega
  refine BitVec.eq_of_toNat_eq ?_
  have hrotate : (rotateLeft x).value.toNat = x.toNat <<< 1 % 2 ^ 8 ||| x.toNat >>> 7 := BitVec.toNat_rotateLeft
  rw [hrotate, BitVec.toNat_ofNat, hshift, ← Nat.shiftLeft_add_eq_or_of_lt (by omega)]
  omega

theorem rotateRight_value : (rotateRight x).value = BitVec.ofNat 8 (x.toNat % 2 * 128 + x.toNat / 2) := by
  have hx := x.isLt
  have hshift : x.toNat <<< 7 % 2 ^ 8 = (x.toNat % 2) <<< 7 := by omega
  refine BitVec.eq_of_toNat_eq ?_
  have hrotate : (rotateRight x).value.toNat = x.toNat >>> 1 ||| x.toNat <<< 7 % 2 ^ 8 := BitVec.toNat_rotateRight
  rw [hrotate, BitVec.toNat_ofNat, hshift, Nat.or_comm, ← Nat.shiftLeft_add_eq_or_of_lt (by omega)]
  omega

theorem rotateLeft_z : (rotateLeft x).z = some (zeroFlag (rotateLeft x).value) := rfl

theorem rotateRight_z : (rotateRight x).z = some (zeroFlag (rotateRight x).value) := rfl

theorem rotateLeftCarry_c : (rotateLeftCarry x b).c = some (decide (128 ≤ x.toNat)) := by
  have hbit : x.getLsbD 7 = decide (128 ≤ x.toNat) := by
    rw [BitVec.getLsbD, Nat.testBit_eq_decide_div_mod_eq, decide_eq_decide]
    omega
  exact congrArg some hbit

theorem rotateRightCarry_c : (rotateRightCarry x b).c = some (decide (x.toNat % 2 = 1)) := by
  have hbit : x.getLsbD 0 = decide (x.toNat % 2 = 1) := by
    rw [BitVec.getLsbD, Nat.testBit_eq_decide_div_mod_eq, pow_zero, Nat.div_one]
  exact congrArg some hbit

theorem rotateLeftCarry_z : (rotateLeftCarry x b).z = some (decide (x.toNat % 128 = 0 ∧ b = false)) := by
  have hb := b.toNat_lt
  have hz : (rotateLeftCarry x b).z = some (zeroFlag (rotateLeftCarry x b).value) := rfl
  rw [hz, rotateLeftCarry_value, zeroFlag_ofNat, Option.some_inj, decide_eq_decide, ← Bool.toNat_eq_zero]
  omega

theorem rotateRightCarry_z : (rotateRightCarry x b).z = some (decide (x.toNat / 2 = 0 ∧ b = false)) := by
  have hb := b.toNat_lt
  have hz : (rotateRightCarry x b).z = some (zeroFlag (rotateRightCarry x b).value) := rfl
  rw [hz, rotateRightCarry_value, zeroFlag_ofNat, Option.some_inj, decide_eq_decide, ← Bool.toNat_eq_zero]
  omega

end

/-- Settles O35: SWPF writes no flag, and the result of a rotate is 0 exactly when the register is. -/
theorem swapAndRotateResults : Obligations.SwapAndRotateResults :=
  ⟨FdaInstr.swpf.fdaResult (fun fv _ => swapNibbles_value fv) (fun _ _ => rfl) (fun _ _ => rfl),
    FdaInstr.rlf.fdaResult
      (hvalue := fun fv _ => rotateLeft_value fv)
      (hc := fun _ _ => rfl)
      (hz := fun fv _ => by
        rw [rotateLeft_z, rotateLeft_value, zeroFlag_ofNat, Option.getD_some, decide_eq_decide,
          Nat.mod_eq_of_lt (by omega)]
        bv_omega),
    FdaInstr.rrf.fdaResult
      (hvalue := fun fv _ => rotateRight_value fv)
      (hc := fun _ _ => rfl)
      (hz := fun fv _ => by
        rw [rotateRight_z, rotateRight_value, zeroFlag_ofNat, Option.getD_some, decide_eq_decide,
          Nat.mod_eq_of_lt (by omega)]
        bv_omega)⟩

/-- Settles O36: the bit that leaves the register is C, and the old C is a bit of the result. -/
theorem rotateThroughCarryResults : Obligations.RotateThroughCarryResults :=
  ⟨FdaInstr.rlfc.fdaResult
      (hvalue := fun fv s => rotateLeftCarry_value fv s.c)
      (hc := fun fv s => by rw [rotateLeftCarry_c, Option.getD_some])
      (hz := fun fv s => by rw [rotateLeftCarry_z, Option.getD_some]),
    FdaInstr.rrfc.fdaResult
      (hvalue := fun fv s => rotateRightCarry_value fv s.c)
      (hc := fun fv s => by rw [rotateRightCarry_c, Option.getD_some])
      (hz := fun fv s => by rw [rotateRightCarry_z, Option.getD_some])⟩

/-! ### Two bytes at a time -/

theorem toNat_lowByte (x : BitVec 16) : (lowByte x).toNat = x.toNat % 256 := by
  rw [lowByte, BitVec.extractLsb'_toNat, Nat.shiftRight_zero]

theorem toNat_highByte (x : BitVec 16) : (highByte x).toNat = x.toNat / 256 := by
  have hx := x.isLt
  rw [highByte, BitVec.extractLsb'_toNat, Nat.shiftRight_eq_div_pow]
  omega

theorem lowByte_not (x : BitVec 16) : lowByte (~~~x) = ~~~lowByte x := by
  refine BitVec.eq_of_toNat_eq ?_
  rw [toNat_lowByte, BitVec.toNat_not, BitVec.toNat_not, toNat_lowByte]
  omega

theorem highByte_not (x : BitVec 16) : highByte (~~~x) = ~~~highByte x := by
  refine BitVec.eq_of_toNat_eq ?_
  rw [toNat_highByte, BitVec.toNat_not, BitVec.toNat_not, toNat_highByte]
  omega

/-- The carry out of a byte is what the exact sum has above it. -/
theorem toNat_addResult_c (x y : Byte) (b c : Bool) :
    ((addResult x y b).c.getD c).toNat = (x.toNat + y.toNat + b.toNat) / 256 := by
  have hb := b.toNat_lt
  have hsum : x.toNat + y.toNat + b.toNat < 512 := by omega
  rw [addResult_c, Option.getD_some]
  by_cases hcarry : 256 ≤ x.toNat + y.toNat + b.toNat
  · rw [decide_eq_true hcarry, Bool.toNat_true]
    omega
  · rw [decide_eq_false hcarry, Bool.toNat_false]
    omega

section
variable (x y : BitVec 16) (b : Bool)

theorem addResult_lowByte :
    (addResult (lowByte x) (lowByte y) b).value = lowByte (BitVec.ofNat 16 (x.toNat + y.toNat + b.toNat)) := by
  refine BitVec.eq_of_toNat_eq ?_
  rw [addResult_value, BitVec.toNat_ofNat, toNat_lowByte, toNat_lowByte, toNat_lowByte, BitVec.toNat_ofNat]
  omega

variable {c : Bool} (hc : c.toNat = ((lowByte x).toNat + (lowByte y).toNat + b.toNat) / 256)
include hc

/-- The sum of the high bytes and the carry out of the low ones is the high part of the exact sum. -/
theorem sum_highBytes :
    (highByte x).toNat + (highByte y).toNat + c.toNat = (x.toNat + y.toNat + b.toNat) / 256 := by
  rw [hc, toNat_lowByte, toNat_lowByte, toNat_highByte, toNat_highByte]
  omega

theorem addResult_highByte :
    (addResult (highByte x) (highByte y) c).value = highByte (BitVec.ofNat 16 (x.toNat + y.toNat + b.toNat)) := by
  refine BitVec.eq_of_toNat_eq ?_
  rw [addResult_value, sum_highBytes x y b hc, BitVec.toNat_ofNat, toNat_highByte, BitVec.toNat_ofNat]
  omega

theorem addResult_highByte_c :
    (addResult (highByte x) (highByte y) c).c = some (decide (65536 ≤ x.toNat + y.toNat + b.toNat)) := by
  rw [addResult_c, sum_highBytes x y b hc, Option.some_inj, decide_eq_decide]
  omega

end

/-- An instruction of the template of rule R130 with RAM as its operand and destination. -/
theorem FdaInstr.exec_plainRam {mk : Nat → Nat → Nat → Instr} {op : Byte → Byte → Bool → AluResult}
    (h : FdaInstr mk op) {s : State} {f : Nat} {fv : Byte} (hf : f < 256) (hram : PlainRam s.cfg f)
    (hread : Memory.read s.ram f = some fv) (hpc : s.pc ≠ 0x7FF#11) :
    exec (mk f 1 0) s =
      .next { s with ram := Memory.write s.ram f (op fv s.w s.c).value, pc := s.pc + 1#11,
                     c := (op fv s.w s.c).c.getD s.c, z := (op fv s.w s.c).z.getD s.z } := by
  have hexec := h.fdaResult (fun _ _ => rfl) (fun _ _ => rfl) (fun _ _ => rfl) s f 1 fv hf (by decide) hpc
    (holds_of_plainRam hram hread)
  rwa [toDest, if_neg (by decide), stored_of_plainRam hram] at hexec

section
variable {mk mk' : Nat → Nat → Nat → Instr} {op op' : Byte → Byte → Bool → AluResult} {s : State} {lo hi : Nat}
  (h : FdaInstr mk op) (h' : FdaInstr mk' op') (hlo : lo < 256) (hhi : hi < 256) (hne : lo ≠ hi)
  (hramlo : PlainRam s.cfg lo) (hramhi : PlainRam s.cfg hi) (hpc : s.pc.toNat + 2 < 2048)
include h h' hlo hhi hne hramlo hramhi hpc

/-- Two such instructions on two RAM registers, with W loaded in between: each leaves its result in its register, and the
second starts from the C of the first. -/
theorem exec_two_registers {fv fv' : Byte} (w : Byte) (hlow : Memory.read s.ram lo = some fv)
    (hhigh : Memory.read s.ram hi = some fv') :
    ∃ t u, exec (mk lo 1 0) s = .next t ∧ exec (mk' hi 1 0) { t with w := w } = .next u ∧
      Memory.read u.ram lo = some (op fv s.w s.c).value ∧ Memory.read u.ram hi = some (op' fv' w t.c).value ∧
      t.c = (op fv s.w s.c).c.getD s.c ∧ u.c = (op' fv' w t.c).c.getD t.c := by
  have hfirst := h.exec_plainRam hlo hramlo hlow (by bv_omega)
  refine ⟨_, _, hfirst, h'.exec_plainRam (fv := fv') hhi hramhi ?_ ?_, ?_, Memory.read_write_same _ _ _, rfl, rfl⟩
  · exact (Memory.read_write_other _ _ _ _ hne.symm).trans hhigh
  · change s.pc + 1#11 ≠ 0x7FF#11
    bv_omega
  · exact (Memory.read_write_other _ _ _ _ hne).trans (Memory.read_write_same _ _ _)

/-- Where with the bytes of x in W the first adds the low byte of `z` with carry in `b`, and the second the high byte of `z`
with the carry, the 16-bit number y in the two registers becomes y + z + b. -/
theorem exec_two_additions {x y z : BitVec 16} {b : Bool}
    (hop : ∀ fv c, op fv (lowByte x) c = addResult fv (lowByte z) b)
    (hop' : ∀ fv c, op' fv (highByte x) c = addResult fv (highByte z) c)
    (hw : s.w = lowByte x) (hlow : Memory.read s.ram lo = some (lowByte y))
    (hhigh : Memory.read s.ram hi = some (highByte y)) :
    ∃ t u, exec (mk lo 1 0) s = .next t ∧ exec (mk' hi 1 0) { t with w := highByte x } = .next u ∧
      Memory.read u.ram lo = some (lowByte (BitVec.ofNat 16 (y.toNat + z.toNat + b.toNat))) ∧
      Memory.read u.ram hi = some (highByte (BitVec.ofNat 16 (y.toNat + z.toNat + b.toNat))) ∧
      u.c = decide (65536 ≤ y.toNat + z.toNat + b.toNat) := by
  obtain ⟨t, u, ht, hu, hreadlo, hreadhi, htc, huc⟩ :=
    exec_two_registers h h' hlo hhi hne hramlo hramhi hpc (highByte x) hlow hhigh
  rw [hw, hop] at hreadlo htc
  rw [hop'] at hreadhi huc
  have hcarry := toNat_addResult_c (lowByte y) (lowByte z) b s.c
  rw [← htc] at hcarry
  refine ⟨t, u, ht, hu, ?_, ?_, ?_⟩
  · rw [hreadlo, addResult_lowByte]
  · rw [hreadhi, addResult_highByte y z b hcarry]
  · rw [huc, addResult_highByte_c y z b hcarry, Option.getD_some]

end

/-- Settles O55: ADDF starts without a carry, ADDC takes it on. -/
theorem sixteenBitAddition : Obligations.SixteenBitAddition := by
  intro s lo hi x y hlo hhi hne hramlo hramhi hpc hw hlow hhigh
  have hsum : BitVec.ofNat 16 (y.toNat + x.toNat + false.toNat) = x + y := by bv_omega
  have hcarry : y.toNat + x.toNat + false.toNat = x.toNat + y.toNat := Nat.add_comm y.toNat x.toNat
  have h := exec_two_additions .addf .addc hlo hhi hne hramlo hramhi hpc (z := x) (b := false) (fun _ _ => rfl)
    (fun _ _ => rfl) hw hlow hhigh
  rwa [hsum, hcarry] at h

/-- Settles O56: SUBF and SUBC add the complement of x, with a first carry in of 1 that makes it the negative of x. -/
theorem sixteenBitSubtraction : Obligations.SixteenBitSubtraction := by
  intro s lo hi x y hlo hhi hne hramlo hramhi hpc hw hlow hhigh
  have hdiff : BitVec.ofNat 16 (y.toNat + (~~~x).toNat + true.toNat) = y - x := by bv_omega
  have hborrow : 65536 ≤ y.toNat + (~~~x).toNat + true.toNat ↔ x.toNat ≤ y.toNat := by bv_omega
  have h := exec_two_additions .subf .subc hlo hhi hne hramlo hramhi hpc (z := ~~~x) (b := true)
    (fun _ _ => by rw [lowByte_not]; rfl) (fun _ _ => by rw [highByte_not]; rfl) hw hlow hhigh
  simpa only [hdiff, hborrow] using h

end Sys2Proof.Proofs
end

section
/-! The literal instructions on W (41_literal.md), in the terms of the statements: the template once, then each instruction by
the value, C and Z of its function of the unit. -/

namespace Sys2Proof.Proofs

open Sys2Proof.Machine Sys2Proof.Statement

/-- An instruction of the template of rule R150 does what its function of k and W says. Every k of 8 bits is the number of a
byte kv, which is what the function is applied to. -/
theorem LiteralInstr.literalResult {mk : Nat → Instr} {op : Byte → Byte → AluResult} {value : Nat → State → Byte}
    {c z : Nat → State → Bool} (h : LiteralInstr mk op) (hvalue : ∀ (kv : Byte) s, (op kv s.w).value = value kv.toNat s)
    (hc : ∀ (kv : Byte) s, (op kv s.w).c.getD s.c = c kv.toNat s)
    (hz : ∀ (kv : Byte) s, (op kv s.w).z.getD s.z = z kv.toNat s) : LiteralResult mk value c z := by
  intro s k hk hpc
  have hkv : (BitVec.ofNat 8 k).toNat = k := Nat.mod_eq_of_lt hk
  rw [h.exec_eq, execLiteral_eq_next]
  refine ⟨by simp [inRangeK, hk], toNat_succ_lt_of_ne hpc, ?_⟩
  simp [State.writeFlags, State.setCZ, State.setW, State.setPc, hvalue, hc, hz, hkv]

/-- Settles O37: ADDL is `addResult`, the exact sum modulo 256, and SUBL is `subResult` with the constant as minuend. -/
theorem literalArithmeticResults : Obligations.LiteralArithmeticResults :=
  ⟨LiteralInstr.addl.literalResult
      (hvalue := fun kv s => addResult_value s.w kv false)
      (hc := fun kv s => by rw [addResult_c]; rfl)
      (hz := fun kv s => by rw [addResult_z, addResult_value, zeroFlag_ofNat]; rfl),
    LiteralInstr.subl.literalResult
      (hvalue := fun kv s => by rw [subResult_value_true, BitVec.ofNat_toNat, BitVec.setWidth_eq])
      (hc := fun kv s => by rw [subResult_c]; rfl)
      (hz := fun kv s => by
        rw [subResult_z, subResult_value_true, Option.getD_some, zeroFlag, decide_eq_decide]; bv_omega)⟩

/-- MVL is `plainResult` of the constant: it reads no W and writes no flag (rule R154). -/
theorem mvl_literalResult : LiteralResult .mvl (fun k _ => BitVec.ofNat 8 k) (fun _ s => s.c) (fun _ s => s.z) :=
  LiteralInstr.mvl.literalResult
    (hvalue := fun kv _ => by rw [BitVec.ofNat_toNat, BitVec.setWidth_eq]; rfl)
    (hc := fun _ _ => rfl)
    (hz := fun _ _ => rfl)

/-- A logic operation of W and k: the result into W, Z of it, C kept. -/
theorem LiteralInstr.literalResult_of_logic {mk : Nat → Instr} {bop : Byte → Byte → Byte} {z : Nat → State → Bool}
    (h : LiteralInstr mk fun kv wv => logicResult (bop wv kv))
    (hz : ∀ (kv : Byte) s, zeroFlag (bop s.w kv) = z kv.toNat s) :
    LiteralResult mk (fun k s => bop s.w (BitVec.ofNat 8 k)) (fun _ s => s.c) z :=
  h.literalResult
    (hvalue := fun kv s => by rw [BitVec.ofNat_toNat, BitVec.setWidth_eq]; rfl)
    (hc := fun _ _ => rfl)
    (hz := hz)

/-- Settles O38: ANDL, IORL and XORL are `logicResult`, which keeps C; MVL is its own lemma. -/
theorem literalLogicResults : Obligations.LiteralLogicResults :=
  ⟨LiteralInstr.andl.literalResult_of_logic (bop := (· &&& ·))
      (hz := fun kv s => by rw [BitVec.ofNat_toNat, BitVec.setWidth_eq]; rfl),
    LiteralInstr.iorl.literalResult_of_logic (bop := (· ||| ·))
      (hz := fun kv s => decide_eq_decide.mpr (BitVec.or_eq_zero_iff.trans (and_congr_right' BitVec.toNat_eq))),
    LiteralInstr.xorl.literalResult_of_logic (bop := (· ^^^ ·))
      (hz := fun kv s => decide_eq_decide.mpr (BitVec.xor_eq_zero_iff.trans BitVec.toNat_eq)),
    mvl_literalResult⟩

/-- Settles O46: the word is the one MVL k is encoded as, and at the top of the space `next` stops it. -/
theorem mvlLoadsTheConstant : Obligations.MvlLoadsTheConstant := by
  intro s k hk
  have hwf : (Instr.mvl k).wellFormed = true := decide_eq_true hk
  have hadm : (Instr.mvl k).admitted = true := by simp [LiteralInstr.mvl.admitted, inRangeK, hk]
  refine ⟨decode_encode_append hwf [], fun hpc v => mvl_literalResult { s with w := v } k hk hpc, fun htop => ?_⟩
  exact pcNeverWraps (.mvl k) s hadm rfl (by simp [htop, Instr.words])

end Sys2Proof.Proofs
end

section
/-! Clear, set and move (42_move_rotate.md rules R160 to R163), in the terms of the statements. -/

namespace Sys2Proof.Proofs

open Sys2Proof.Machine Sys2Proof.Statement

/-- CLRF and SETF write a register that can be written, without reading it. -/
theorem FillInstr.exec_writable {mk : Nat → Nat → Instr} {v : Byte} (h : FillInstr mk v) {s : State} {f : Nat}
    (hf : f < 256) (hpc : s.pc ≠ 0x7FF#11) (hwritable : Writable s.cfg f) :
    exec (mk f 0) s = .next (stored s f v (s.pc + 1#11)) := by
  rw [h.exec_eq, execFill_eq_next]
  exact ⟨by decide, by simp [inRangeFa, hf], toNat_succ_lt_of_ne hpc, memWrite_of_writable hpc hwritable v _⟩

/-- MVF with d = 1 does not read the register it writes. -/
theorem exec_mvf_to_register {s : State} {f : Nat} (hf : f < 256) (hpc : s.pc ≠ 0x7FF#11) (hwritable : Writable s.cfg f) :
    exec (.mvf f 1 0) s = .next (stored s f s.w (s.pc + 1#11)) :=
  execMvf_eq_next.mpr ⟨by decide, by simp [inRangeFda, hf], toNat_succ_lt_of_ne hpc,
    .inr ⟨by decide, memWrite_of_writable hpc hwritable s.w _⟩⟩

theorem exec_mvf_to_w {s : State} {f : Nat} {fv : Byte} (hf : f < 256) (hpc : s.pc ≠ 0x7FF#11) (hholds : Holds s f fv) :
    exec (.mvf f 0 0) s = .next { s with w := fv, pc := s.pc + 1#11 } :=
  execMvf_eq_next.mpr ⟨by decide, by simp [inRangeFda, hf], toNat_succ_lt_of_ne hpc,
    .inl ⟨rfl, fv, memRead_of_holds hpc hholds, rfl⟩⟩

/-- Settles O39: CLRF and SETF by the template of rule R160, MVF by its two destinations. -/
theorem clearSetMoveResults : Obligations.ClearSetMoveResults :=
  ⟨fun _ _ hf hpc hwritable => ⟨FillInstr.clrf.exec_writable hf hpc hwritable, FillInstr.setf.exec_writable hf hpc hwritable,
      exec_mvf_to_register hf hpc hwritable⟩,
    fun _ _ _ hf hpc hholds => exec_mvf_to_w hf hpc hholds⟩

end Sys2Proof.Proofs
end

section
/-! Chains of one rotate or exchange on a RAM register (42_move_rotate.md rules R164 to R168). A chain iterates one function on
the register and C, so what is left to show is the period of that function: of a rotate of w bits it is w, a function that
undoes another has the other's period, and an exchange undoes itself. -/

namespace Sys2Proof.Proofs

open Function Sys2Proof.Machine Sys2Proof.Statement

/-! ### A chain of one instruction on one RAM register -/

/-- What an instruction of the template of rule R130 with d = 1 makes of the register and C, where W is wv. -/
def onRegisterAndC (op : Byte → Byte → Bool → AluResult) (wv : Byte) (x : Byte × Bool) : Byte × Bool :=
  ((op x.1 wv x.2).value, (op x.1 wv x.2).c.getD x.2)

/-- W is the same at every instruction of the chain, as RAM is the destination. -/
theorem FdaInstr.repeated_plainRam {mk : Nat → Nat → Nat → Instr} {op : Byte → Byte → Bool → AluResult}
    (h : FdaInstr mk op) {f : Nat} (hf : f < 256) (n : Nat) {s : State} {fv : Byte} (hram : PlainRam s.cfg f)
    (hread : Memory.read s.ram f = some fv) (hpc : s.pc.toNat + n < 2048) :
    ∃ t, repeated (mk f 1 0) n s = .next t ∧
      Memory.read t.ram f = some ((onRegisterAndC op s.w)^[n] (fv, s.c)).1 ∧
      t.c = ((onRegisterAndC op s.w)^[n] (fv, s.c)).2 := by
  induction n generalizing s fv with
  | zero => exact ⟨s, rfl, hread, rfl⟩
  | succ n ih =>
    have hfirst := h.exec_plainRam hf hram hread (by bv_omega)
    rw [repeated, hfirst, andThen_next]
    exact ih hram (Memory.read_write_same _ _ _) (by bv_omega)

/-- A chain as long as a period of the instruction's function restores the register and C. -/
theorem FdaInstr.repeated_restores {mk : Nat → Nat → Nat → Instr} {op : Byte → Byte → Bool → AluResult} {n : Nat}
    (h : FdaInstr mk op) (hperiod : ∀ wv x, IsPeriodicPt (onRegisterAndC op wv) n x) {s : State} {f : Nat} {fv : Byte}
    (hf : f < 256) (hram : PlainRam s.cfg f) (hread : Memory.read s.ram f = some fv) (hpc : s.pc.toNat + n < 2048) :
    ∃ t, repeated (mk f 1 0) n s = .next t ∧ Memory.read t.ram f = some fv ∧ t.c = s.c := by
  have hchain := h.repeated_plainRam hf n hram hread hpc
  rwa [(hperiod s.w (fv, s.c)).eq] at hchain

theorem repeated_keeps_z {i : Instr} (hz : writesZ i = false) {n : Nat} {s t : State} (h : repeated i n s = .next t) :
    t.z = s.z := by
  induction n generalizing s with
  | zero => cases h; rfl
  | succ n ih =>
    obtain ⟨u, hfirst, hrest⟩ := andThen_eq_next.mp h
    exact (ih hrest).trans (zeroWriters i s u hfirst hz)

/-! ### The periods -/

/-- A rotate takes each bit from the place before it in the ring of w places. -/
theorem getLsbD_rotateLeft_one {w : Nat} (x : BitVec w) {i : Nat} (hi : i < w) :
    (x.rotateLeft 1).getLsbD i = x.getLsbD ((i + (w - 1)) % w) := by
  rw [BitVec.getLsbD_rotateLeft]
  obtain rfl | hw : w = 1 ∨ 1 < w := by omega
  · simp [show i = 0 by omega]
  · rw [Nat.mod_eq_of_lt hw]
    cases i with
    | zero => simp [Nat.mod_eq_of_lt (show w - 1 < w by omega)]
    | succ j =>
      have hplace : (j + 1 + (w - 1)) % w = j := by
        rw [show j + 1 + (w - 1) = j + w by omega, Nat.add_mod_right, Nat.mod_eq_of_lt (by omega)]
      simp [hplace, hi]

theorem getLsbD_iterate_rotateLeft_one {w : Nat} (x : BitVec w) (n : Nat) {i : Nat} (hi : i < w) :
    ((BitVec.rotateLeft · 1)^[n] x).getLsbD i = x.getLsbD ((i + (w - 1) * n) % w) := by
  induction n generalizing i with
  | zero => simp [Nat.mod_eq_of_lt hi]
  | succ n ih =>
    have hw : 0 < w := by omega
    rw [iterate_succ_apply', getLsbD_rotateLeft_one _ hi, ih (Nat.mod_lt _ hw), Nat.mod_add_mod, Nat.add_assoc,
      Nat.mul_succ, Nat.add_comm (w - 1)]

/-- After w rotates each bit has gone around the ring w - 1 times. -/
theorem isPeriodicPt_rotateLeft_one {w : Nat} (x : BitVec w) : IsPeriodicPt (BitVec.rotateLeft · 1) w x := by
  refine BitVec.eq_of_getLsbD_eq fun i hi => ?_
  rw [getLsbD_iterate_rotateLeft_one x w hi, Nat.add_mul_mod_self_right, Nat.mod_eq_of_lt hi]

theorem isPeriodicPt_of_leftInverse {α : Type} {f g : α → α} {n : Nat} {x : α} (hg : LeftInverse g f)
    (hf : IsPeriodicPt f n x) : IsPeriodicPt g n x :=
  hf.to_leftInverse (hg.iterate n)

/-- The byte as two digits, m values for the lower and k for the higher one: to exchange them again, with m and k exchanged
too, gives the byte back. -/
theorem leftInverse_of_exchanged_digits {m k : Nat} (hmk : m * k = 256) {f g : Byte → Byte}
    (hf : ∀ x : Byte, f x = BitVec.ofNat 8 (x.toNat % m * k + x.toNat / m))
    (hg : ∀ x : Byte, g x = BitVec.ofNat 8 (x.toNat % k * m + x.toNat / k)) : LeftInverse g f := by
  intro x
  have hhigh : x.toNat / m < k := Nat.div_lt_of_lt_mul (hmk ▸ x.isLt)
  have hlow : x.toNat % m < m := Nat.mod_lt _ (Nat.pos_of_ne_zero (by rintro rfl; omega))
  have hbyte : x.toNat % m * k + x.toNat / m < 2 ^ 8 := calc
    x.toNat % m * k + x.toNat / m < (x.toNat % m + 1) * k := by rw [Nat.succ_mul]; omega
    _ ≤ m * k := Nat.mul_le_mul_right k hlow
    _ = 2 ^ 8 := hmk
  rw [hg, hf, BitVec.toNat_ofNat, Nat.mod_eq_of_lt hbyte, Nat.mul_add_mod', Nat.mod_eq_of_lt hhigh, Nat.mul_comm _ k,
    Nat.mul_add_div (Nat.zero_lt_of_lt hhigh), Nat.div_eq_of_lt hhigh, Nat.add_zero, Nat.div_add_mod', BitVec.ofNat_toNat,
    BitVec.setWidth_eq]

section
variable (wv : Byte) (x : Byte × Bool)

theorem isPeriodicPt_rotateLeft : IsPeriodicPt (onRegisterAndC (fun fv _ _ => rotateLeft fv) wv) 8 x :=
  (isPeriodicPt_rotateLeft_one x.1).prodMap (is_periodic_id 8 x.2)

/-- RRF undoes RLF: RLF exchanges the highest bit with the other seven, RRF the lowest. -/
theorem rotateRight_leftInverse :
    LeftInverse (onRegisterAndC (fun fv _ _ => rotateRight fv) wv) (onRegisterAndC (fun fv _ _ => rotateLeft fv) wv) :=
  have hinv := leftInverse_of_exchanged_digits (m := 128) (k := 2) rfl rotateLeft_value rotateRight_value
  fun y => Prod.ext (hinv y.1) rfl

theorem isPeriodicPt_rotateRight : IsPeriodicPt (onRegisterAndC (fun fv _ _ => rotateRight fv) wv) 8 x :=
  isPeriodicPt_of_leftInverse (rotateRight_leftInverse wv) (isPeriodicPt_rotateLeft wv x)

/-- RLFC rotates nine bits, C the highest of them. -/
theorem rotateLeftCarry_semiconj :
    Semiconj (fun y : BitVec 9 => (y.setWidth 8, y.msb)) (BitVec.rotateLeft · 1)
      (onRegisterAndC (fun fv _ cv => rotateLeftCarry fv cv) wv) := by
  intro y
  have hmsb (z : BitVec 9) : z.msb = z.getLsbD 8 := BitVec.msb_eq_getLsbD_last z
  refine Prod.ext (BitVec.eq_of_getLsbD_eq fun i hi => ?_) ?_
  · change ((y.rotateLeft 1).setWidth 8).getLsbD i =
      ((y.setWidth 8).extractLsb' 0 7 ++ BitVec.ofBool y.msb : Byte).getLsbD i
    rw [BitVec.getLsbD_append, BitVec.getLsbD_setWidth, getLsbD_rotateLeft_one y (by omega), hmsb]
    cases i with
    | zero => simp
    | succ j => simp [hi, Nat.lt_of_succ_lt hi, show j < 7 by omega, show (j + 9) % 9 = j by omega]
  · change (y.rotateLeft 1).msb = (y.setWidth 8).getLsbD 7
    rw [hmsb, getLsbD_rotateLeft_one y (by decide), BitVec.getLsbD_setWidth]
    rfl

theorem isPeriodicPt_rotateLeftCarry : IsPeriodicPt (onRegisterAndC (fun fv _ cv => rotateLeftCarry fv cv) wv) 9 x := by
  have hring := (isPeriodicPt_rotateLeft_one (BitVec.cons x.2 x.1)).map (rotateLeftCarry_semiconj wv)
  rwa [BitVec.setWidth_cons, BitVec.msb_cons] at hring

/-- RRFC undoes RLFC. -/
theorem rotateRightCarry_leftInverse :
    LeftInverse (onRegisterAndC (fun fv _ cv => rotateRightCarry fv cv) wv)
      (onRegisterAndC (fun fv _ cv => rotateLeftCarry fv cv) wv) := by
  rintro ⟨fv, cv⟩
  have hcv := cv.toNat_lt
  have hbyte : (fv.toNat % 128 * 2 + cv.toNat) % 2 ^ 8 = fv.toNat % 128 * 2 + cv.toNat := Nat.mod_eq_of_lt (by omega)
  have hhigh : (decide (128 ≤ fv.toNat)).toNat = fv.toNat / 128 := by
    rw [Bool.toNat, Bool.cond_decide]
    split <;> omega
  refine Prod.ext (BitVec.eq_of_toNat_eq ?_) ?_
  · simp only [onRegisterAndC, rotateRightCarry_value, rotateLeftCarry_value, rotateLeftCarry_c, Option.getD_some,
      BitVec.toNat_ofNat, hbyte, hhigh]
    omega
  · simp only [onRegisterAndC, rotateRightCarry_c, rotateLeftCarry_value, Option.getD_some, BitVec.toNat_ofNat, hbyte]
    cases cv <;> simp

theorem isPeriodicPt_rotateRightCarry : IsPeriodicPt (onRegisterAndC (fun fv _ cv => rotateRightCarry fv cv) wv) 9 x :=
  isPeriodicPt_of_leftInverse (rotateRightCarry_leftInverse wv) (isPeriodicPt_rotateLeftCarry wv x)

/-- SWPF undoes itself: both digits are nibbles. -/
theorem isPeriodicPt_swapNibbles : IsPeriodicPt (onRegisterAndC (fun fv _ _ => swapNibbles fv) wv) 2 x :=
  have hinv := leftInverse_of_exchanged_digits (m := 16) (k := 16) rfl swapNibbles_value swapNibbles_value
  Prod.ext (hinv x.1) rfl

end

/-- Settles O57, by the period of each function; SWPF is not in the list of the instructions that write Z. -/
theorem rotatesRestore : Obligations.RotatesRestore := by
  intro s f fv hf hram hread hpc
  obtain ⟨t, ht, hfile, hc⟩ := FdaInstr.swpf.repeated_restores isPeriodicPt_swapNibbles hf hram hread (by omega)
  exact ⟨FdaInstr.rlf.repeated_restores isPeriodicPt_rotateLeft hf hram hread (by omega),
    FdaInstr.rrf.repeated_restores isPeriodicPt_rotateRight hf hram hread (by omega),
    FdaInstr.rlfc.repeated_restores isPeriodicPt_rotateLeftCarry hf hram hread hpc,
    FdaInstr.rrfc.repeated_restores isPeriodicPt_rotateRightCarry hf hram hread hpc,
    t, ht, hfile, hc, repeated_keeps_z rfl ht⟩

end Sys2Proof.Proofs
end

section
/-! Compare, test or count and skip (43_compare_skip.md rules R180 to R189, 45_bit.md rules R234 and R235), in the terms of the
statements. What the skip comes to once, then each instruction by its condition and by what it does with the address the skip
gives. -/

namespace Sys2Proof.Proofs

open Sys2Proof.Machine Sys2Proof.Statement

/-! ### The address a skip gives (rule R180) -/

section
variable {s : State} {j : Instr}

theorem skipTarget_of_slot (hslot : slotAt s (s.pc + 1#11) = .ok j) (hfit : s.pc.toNat + 1 + j.words < 2048) :
    skipTarget s (s.pc + 1#11) = .next (BitVec.ofNat 11 (s.pc.toNat + 1 + j.words)) :=
  skipTarget_eq_next.mpr ⟨j, hslot, by simp only [progSize]; bv_omega, by bv_omega⟩

theorem skipTarget_of_error {e : DecodeError} (hslot : slotAt s (s.pc + 1#11) = .error e) :
    skipTarget s (s.pc + 1#11) = raise s (.badFetch (s.pc + 1#11)) := by
  rw [skipTarget, fetch_of_error hslot, andThen_raise]

theorem skipTarget_of_le (hpc : s.pc ≠ 0x7FF#11) (hslot : slotAt s (s.pc + 1#11) = .ok j)
    (hover : 2048 ≤ s.pc.toNat + 1 + j.words) : skipTarget s (s.pc + 1#11) = raise s (.pcOutOfRange s.pc) := by
  rw [← toNat_succ_of_ne hpc] at hover
  rw [skipTarget, fetch_eq_next.mpr hslot, andThen_next]
  exact if_neg (Nat.not_lt.mpr hover)

end

/-! ### What a skip instruction does with that address -/

/-- The instruction i at s skips as cond says, and does nothing but go on to the state `done` gives of the address. -/
def SkipsWhen (i : Instr) (s : State) (cond : Bool) (done : PAddr → State) : Prop :=
  exec i s = andThen (skipIf s (s.pc + 1#11) cond) fun p => .next (done p)

section
variable {i : Instr} {s : State} {cond : Bool} {done : PAddr → State}

theorem SkipsWhen.exec_eq (h : SkipsWhen i s cond done) (hcond : cond = true) :
    exec i s = andThen (skipTarget s (s.pc + 1#11)) fun p => .next (done p) := by
  subst hcond
  exact h

/-- The instruction goes on at `next`, or past the whole instruction that stands there. -/
theorem SkipsWhen.stays_and_skips (h : SkipsWhen i s cond done) :
    (cond = false → exec i s = .next (done (s.pc + 1#11))) ∧
    (∀ j, cond = true → slotAt s (s.pc + 1#11) = .ok j → s.pc.toNat + 1 + j.words < 2048 →
      exec i s = .next (done (BitVec.ofNat 11 (s.pc.toNat + 1 + j.words)))) := by
  refine ⟨fun hcond => ?_, fun j hcond hslot hfit => ?_⟩
  · subst hcond
    exact h
  · rw [h.exec_eq hcond, skipTarget_of_slot hslot hfit, andThen_next]

/-- The two checks of a skip stop the instruction, whatever it would have done with the address. -/
theorem SkipsWhen.stops (h : SkipsWhen i s cond done) (hcond : cond = true) (hpc : s.pc ≠ 0x7FF#11) :
    (∀ e, slotAt s (s.pc + 1#11) = .error e → exec i s = faults s (.badFetch (s.pc + 1#11))) ∧
    (∀ j, slotAt s (s.pc + 1#11) = .ok j → 2048 ≤ s.pc.toNat + 1 + j.words →
      exec i s = faults s (.pcOutOfRange s.pc)) := by
  rw [h.exec_eq hcond]
  refine ⟨fun e hslot => ?_, fun j hslot hover => ?_⟩
  · rw [skipTarget_of_error hslot, andThen_raise]
    rfl
  · rw [skipTarget_of_le hpc hslot hover, andThen_raise]
    rfl

end

/-! ### The two templates -/

theorem beginOne_of_ne {s : State} {ok : Bool} (hok : ok = true) (hpc : s.pc ≠ 0x7FF#11) :
    beginOne s 0 0 ok = .next (s.pc + 1#11) :=
  beginOne_eq_next.mpr ⟨by decide, by decide, hok, toNat_succ_lt_of_ne hpc, rfl⟩

section
variable {mk : Nat → Nat → Instr} {cond : Config → Byte → Byte → Bool} {ok : Nat → Nat → Bool}
  {test : Byte → State → Bool}

theorem TestInstr.skipsWhen (h : TestInstr mk cond ok) {s : State} {f : Nat} {fv : Byte} (hok : ok f 0 = true)
    (hpc : s.pc ≠ 0x7FF#11) (hholds : Holds s f fv) : SkipsWhen (mk f 0) s (cond s.cfg fv s.w) s.setPc := by
  rw [SkipsWhen, h.exec_eq, execTest, beginOne_of_ne hok hpc, andThen_next, memRead_of_holds hpc hholds, andThen_next]

/-- An instruction of the template does what its test says, as it is written in the statement. -/
theorem TestInstr.testResult (h : TestInstr mk cond ok) (hok : ∀ f < 256, ok f 0 = true)
    (htest : ∀ fv s, cond s.cfg fv s.w = test fv s) : TestResult (fun f => mk f 0) test :=
  fun s f fv hf hpc hholds => htest fv s ▸ (h.skipsWhen (hok f hf) hpc hholds).stays_and_skips

theorem TestInstr.skipStops (h : TestInstr mk cond ok) (hok : ∀ f < 256, ok f 0 = true)
    (htest : ∀ fv s, cond s.cfg fv s.w = test fv s) : SkipStops (fun f => mk f 0) test :=
  fun s f fv hf hpc hholds hcond => (h.skipsWhen (hok f hf) hpc hholds).stops ((htest fv s).trans hcond) hpc

end

section
variable {mk : Nat → Nat → Nat → Instr} {delta : Byte} {cond : Byte → Bool}

/-- The result is written after the checks of the skip, and no write to a register that can be read stops. -/
theorem CountInstr.skipsWhen (h : CountInstr mk delta cond) {s : State} {f d : Nat} {fv : Byte} (hf : f < 256)
    (hd : d < 2) (hpc : s.pc ≠ 0x7FF#11) (hholds : Holds s f fv) :
    SkipsWhen (mk f d 0) s (cond (fv + delta)) (toDest s f d (fv + delta)) := by
  have hok : inRangeFda f d 0 = true := by simp [inRangeFda, hf, hd]
  rw [SkipsWhen, h.exec_eq, execCount, beginOne_of_ne hok hpc, andThen_next, memRead_of_holds hpc hholds, andThen_next]
  simp only [writeDest_of_writable hpc (writable_of_holds hholds)]

theorem CountInstr.countResult {value : Byte → Byte} (h : CountInstr mk delta cond)
    (hvalue : ∀ fv, fv + delta = value fv) : CountResult mk value cond :=
  fun _ _ _ fv hf hd hpc hholds => hvalue fv ▸ (h.skipsWhen hf hd hpc hholds).stays_and_skips

/-- A test of the register before the count says whether the result makes the skip. -/
theorem CountInstr.skipStops {test : Byte → Bool} (h : CountInstr mk delta cond)
    (htest : ∀ fv, cond (fv + delta) = test fv) {d : Nat} (hd : d < 2) :
    SkipStops (fun f => mk f d 0) (fun fv _ => test fv) :=
  fun _ _ fv hf hpc hholds hcond => (h.skipsWhen hf hd hpc hholds).stops ((htest fv).trans hcond) hpc

end

/-! ### The instructions -/

theorem inRangeFa_zero {f : Nat} (hf : f < 256) : inRangeFa f 0 = true := by simp [inRangeFa, hf]

theorem inRangeFba_zero {f b : Nat} (hb : b < 8) (hf : f < 256) : inRangeFba f b 0 = true := by
  simp [inRangeFba, hf, hb]

/-- Settles O41: the statement spells out the tests of the six instructions. -/
theorem testAndSkipResults : Obligations.TestAndSkipResults :=
  ⟨TestInstr.cpse.testResult (fun _ => inRangeFa_zero) (fun _ _ => rfl),
    TestInstr.cpsg.testResult (fun _ => inRangeFa_zero) (fun _ _ => rfl),
    TestInstr.cpsl.testResult (fun _ => inRangeFa_zero) (fun _ _ => rfl),
    TestInstr.tfsz.testResult (fun _ => inRangeFa_zero) (fun _ _ => decide_eq_decide.mpr BitVec.toNat_eq),
    fun b hb =>
      ⟨(TestInstr.btss b).testResult (fun _ => inRangeFba_zero hb) (fun _ _ => rfl),
        (TestInstr.btsz b).testResult (fun _ => inRangeFba_zero hb) (fun _ _ => rfl)⟩⟩

/-- Settles O42: adding 255 subtracts 1 modulo 256. -/
theorem countAndSkipResults : Obligations.CountAndSkipResults :=
  have hminus : ∀ fv : Byte, fv + 0xFF = fv - 1#8 := fun _ => by bv_omega
  ⟨CountInstr.dcsuz.countResult hminus, CountInstr.dcsz.countResult hminus,
    CountInstr.insuz.countResult fun _ => rfl, CountInstr.insz.countResult fun _ => rfl⟩

/-- Settles O43: the result of a count is 0 exactly where the register was 1, or 255. -/
theorem skipThatCannotBeMadeFaults : Obligations.SkipThatCannotBeMadeFaults :=
  have hdown : ∀ fv : Byte, fv + 0xFF = 0 ↔ fv = 1#8 := fun _ => by bv_omega
  have hup : ∀ fv : Byte, fv + 0x01 = 0 ↔ fv = 255#8 := fun _ => by bv_omega
  ⟨TestInstr.cpse.skipStops (fun _ => inRangeFa_zero) (fun _ _ => rfl),
    TestInstr.cpsg.skipStops (fun _ => inRangeFa_zero) (fun _ _ => rfl),
    TestInstr.cpsl.skipStops (fun _ => inRangeFa_zero) (fun _ _ => rfl),
    TestInstr.tfsz.skipStops (fun _ => inRangeFa_zero) (fun _ _ => rfl),
    fun b hb =>
      ⟨(TestInstr.btss b).skipStops (fun _ => inRangeFba_zero hb) (fun _ _ => rfl),
        (TestInstr.btsz b).skipStops (fun _ => inRangeFba_zero hb) (fun _ _ => rfl)⟩,
    fun _ hd =>
      ⟨CountInstr.dcsuz.skipStops (fun fv => decide_eq_decide.mpr (hdown fv).not) hd,
        CountInstr.dcsz.skipStops (fun fv => decide_eq_decide.mpr (hdown fv)) hd,
        CountInstr.insuz.skipStops (fun fv => decide_eq_decide.mpr (hup fv).not) hd,
        CountInstr.insz.skipStops (fun fv => decide_eq_decide.mpr (hup fv)) hd⟩⟩

/-! ### Exactly one of the comparisons -/

/-- Either order of the bytes, the unsigned and the signed, is linear: exactly one of the three tests holds. -/
theorem compare_trichotomy (g : Config) (x y : Byte) :
    (decide (x = y) = true ∧ byteGreater g x y = false ∧ byteLess g x y = false) ∨
    (decide (x = y) = false ∧ byteGreater g x y = true ∧ byteLess g x y = false) ∨
    (decide (x = y) = false ∧ byteGreater g x y = false ∧ byteLess g x y = true) := by
  unfold byteGreater byteLess
  cases g.cmpSigned
  · simp only [Bool.false_eq_true, if_false, decide_eq_true_eq, decide_eq_false_iff_not, BitVec.ult, BitVec.toNat_eq]
    omega
  · simp only [if_true, decide_eq_true_eq, decide_eq_false_iff_not, BitVec.slt, ← BitVec.toInt_inj]
    omega

/-- Settles O58: the results of O41, under each of the three orders of f and W and under both values of bit b. -/
theorem exactlyOneCompareSkips : Obligations.ExactlyOneCompareSkips := by
  intro s f b fv j hf hb hholds hslot hfit _ _
  have hpc : s.pc ≠ 0x7FF#11 := by bv_omega
  obtain ⟨hcpse, hcpsg, hcpsl, -, hbit⟩ := testAndSkipResults
  obtain ⟨cpseStays, cpseSkips⟩ := hcpse s f fv hf hpc hholds
  obtain ⟨cpsgStays, cpsgSkips⟩ := hcpsg s f fv hf hpc hholds
  obtain ⟨cpslStays, cpslSkips⟩ := hcpsl s f fv hf hpc hholds
  obtain ⟨btssStays, btssSkips⟩ := (hbit b hb).1 s f fv hf hpc hholds
  obtain ⟨btszStays, btszSkips⟩ := (hbit b hb).2 s f fv hf hpc hholds
  constructor
  · rcases compare_trichotomy s.cfg fv s.w with ⟨heq, hgt, hlt⟩ | ⟨heq, hgt, hlt⟩ | ⟨heq, hgt, hlt⟩
    · exact .inl ⟨cpseSkips j heq hslot hfit, cpsgStays hgt, cpslStays hlt⟩
    · exact .inr (.inl ⟨cpseStays heq, cpsgSkips j hgt hslot hfit, cpslStays hlt⟩)
    · exact .inr (.inr ⟨cpseStays heq, cpsgStays hgt, cpslSkips j hlt hslot hfit⟩)
  · cases hvalue : fv.getLsbD b with
    | true => exact .inl ⟨btssSkips j hvalue hslot hfit, btszStays (by simp [hvalue])⟩
    | false => exact .inr ⟨btssStays hvalue, btszSkips j (by simp [hvalue]) hslot hfit⟩

end Sys2Proof.Proofs
end

section
/-! Control operations (44_control.md rules R202 and R204 to R210) and the interrupt that RETI returns from (60_exceptions.md
rules R251 and R252), in the terms of the statements. -/

namespace Sys2Proof.Proofs

open Sys2Proof.Machine Sys2Proof.Statement

/-! ### The instructions without operands -/

/-- An instruction that only goes on to `next` and sets fields from it, below the top of the space. -/
theorem goesOn_of_ne {s : State} (hpc : s.pc ≠ 0x7FF#11) (done : PAddr → State) :
    (andThen (nextAddr s 1) fun nxt => .next (done nxt)) = .next (done (s.pc + 1#11)) := by
  rw [nextAddr_of_lt (toNat_succ_lt_of_ne hpc), andThen_next]

theorem exec_nop {s : State} (hpc : s.pc ≠ 0x7FF#11) : exec .nop s = .next { s with pc := s.pc + 1#11 } :=
  goesOn_of_ne hpc s.setPc

/-- Settles O45: the word is the one NOP is encoded as, and at the top of the space `next` stops it. -/
theorem nopOnlyMovesPc : Obligations.NopOnlyMovesPc :=
  ⟨decode_encode_append (i := .nop) rfl [], fun s =>
    ⟨exec_nop, fun htop => pcNeverWraps .nop s rfl rfl (by simp [htop, Instr.words])⟩⟩

/-! ### JMP -/

theorem exec_jmp {n : Nat} (hn : n < 2048) (s : State) : exec (.jmp n) s = .next { s with pc := BitVec.ofNat 11 n } := by
  have hck : checkOperands s 0 0 (inRangeN n) = .next () := checkOperands_of_admitted (by simp [inRangeN, hn])
  rw [exec, execJmp, hck, andThen_next]
  rfl

/-- Settles O47: the words are those JMP n is encoded as, and n is an address. -/
theorem jmpGoesToItsOperand : Obligations.JmpGoesToItsOperand := by
  intro s n hn
  have hwf : (Instr.jmp n).wellFormed = true := decide_eq_true hn
  exact ⟨decode_encode_append hwf [], _, exec_jmp hn s, Nat.mod_eq_of_lt hn, rfl⟩

/-- Settles O44: JMP goes to its operand, the others go on to `next`. -/
theorem jumpNopAndPowerResults : Obligations.JumpNopAndPowerResults :=
  ⟨fun s _ hn => exec_jmp hn s, fun s hpc =>
    ⟨exec_nop hpc, goesOn_of_ne hpc fun nxt => { s with wdt := 0, toFlag := false, pc := nxt },
      goesOn_of_ne hpc fun nxt => { s with idleb := true, pc := nxt, run := .idle },
      goesOn_of_ne hpc fun nxt => { s with pd := true, pc := nxt, run := .sleep }⟩⟩

/-! ### The returns -/

theorem popReturn_of_cons {s : State} {t : PAddr} {rest : List PAddr} (h : s.stack = t :: rest) (also : State → State) :
    popReturn s also = .next (also { s with stack := rest, pc := t }) :=
  popReturn_eq_next.mpr ⟨t, rest, h, rfl⟩

theorem exec_ret (s : State) : exec (.ret 0) s = popReturn s fun t => t := rfl

theorem exec_reti_of_modelled {s : State} (h : s.cfg.interruptsModelled = true) :
    exec (.reti 0) s = popReturn s fun t => { t with gie := true } := if_pos h

theorem exec_reti_of_not_modelled {s : State} (h : s.cfg.interruptsModelled = false) :
    exec (.reti 0) s = refuses s .interruptsNotModelled :=
  if_neg (h ▸ Bool.false_ne_true)

/-- Settles O49: each return pops the address, RETI where interrupts are modelled. -/
theorem returnResults : Obligations.ReturnResults := by
  intro s t rest hstack
  refine ⟨?_, fun k hk => ?_, fun hmod => ?_, exec_reti_of_not_modelled⟩
  · rw [exec_ret, popReturn_of_cons hstack]
  · rw [exec_retl hk, popReturn_of_cons hstack]
    rfl
  · rw [exec_reti_of_modelled hmod, popReturn_of_cons hstack]

/-- Settles O60: what CALL pushed is what RET pops, with the stack of the CALL under it. -/
theorem returnFollowsCall : Obligations.ReturnFollowsCall := by
  intro s n hn hpc hroom
  obtain ⟨hcall, -⟩ := callResults s n hn
  refine ⟨_, hcall hpc hroom, rfl, fun u hstack => ?_⟩
  obtain ⟨hret, -⟩ := returnResults u _ _ hstack
  exact ⟨_, hret, Nat.mod_eq_of_lt hpc, rfl⟩

/-! ### The interrupt and its return -/

/-- A step of a running state at which the interrupt is requested is interrupt entry (rule R251). -/
theorem step_of_requested {s : State} (hs : Stepped s) (hrun : s.run = .running) (hreq : Requested s) :
    step s = interruptEntry s.consume := by
  rw [step_of_stepped hs, boundaryStep, hrun]
  exact if_pos (interruptTaken_iff.mpr hreq)

/-- Settles O12: RETI pops the pc that entry pushed, and sets the GIE that the request needed. -/
theorem retiUndoesInterruptEntry : Obligations.RetiUndoesInterruptEntry := by
  intro s hs hrun hreq hroom
  have hentry := interruptEntry_eq_next (s := s.consume).mpr ⟨hroom, rfl⟩
  refine ⟨_, (step_of_requested hs hrun hreq).trans hentry, rfl, rfl, ?_⟩
  obtain ⟨hmod, hgie, -⟩ := hreq
  rw [exec_reti_of_modelled (by exact hmod), popReturn_of_cons (by rfl)]
  simp [State.consume, State.setStack, hgie]

end Sys2Proof.Proofs
end

section
/-! One bit of a register (45_bit.md rules R230 to R233), in the terms of the statements: the template once, then what each of
the three functions does to every bit. -/

namespace Sys2Proof.Proofs

open Sys2Proof.Machine Sys2Proof.Statement

/-- An instruction of the template of rule R230 changes bit b of a register that can be read as its function does. -/
theorem BitInstr.bitResult {mk : Nat → Nat → Nat → Instr} {op : Nat → Byte → Byte} {newBit : Bool → Bool} (h : BitInstr mk op)
    (hbit : ∀ b fv, ∀ j < 8, (op b fv).getLsbD j = if j = b then newBit (fv.getLsbD j) else fv.getLsbD j) :
    BitResult mk newBit := by
  intro s f b fv hf hb hpc hholds
  refine ⟨op b fv, hbit b fv, ?_⟩
  rw [h.exec_eq, execBit_eq_next]
  exact ⟨by decide, by simp [inRangeFba, hf, hb], toNat_succ_lt_of_ne hpc, fv, memRead_of_holds hpc hholds,
    memWrite_of_writable hpc (writable_of_holds hholds) _ _⟩

section
variable (b : Nat) (x : Byte) (j : Nat) (hj : j < 8)
include hj

theorem getLsbD_bitMask : (bitMask b).getLsbD j = decide (j = b) := by
  rw [bitMask, ← BitVec.twoPow_eq, BitVec.getLsbD_twoPow, ← Bool.decide_and, decide_eq_decide]
  omega

/-- Rule R231: bit b becomes 0. -/
theorem getLsbD_and_not_bitMask : (x &&& ~~~(bitMask b)).getLsbD j = if j = b then false else x.getLsbD j := by
  rw [BitVec.getLsbD_and, BitVec.getLsbD_not, getLsbD_bitMask b j hj, decide_eq_true hj]
  by_cases hjb : j = b <;> simp [hjb]

/-- Rule R232: bit b becomes 1. -/
theorem getLsbD_or_bitMask : (x ||| bitMask b).getLsbD j = if j = b then true else x.getLsbD j := by
  rw [BitVec.getLsbD_or, getLsbD_bitMask b j hj]
  by_cases hjb : j = b <;> simp [hjb]

/-- Rule R233: bit b is complemented. -/
theorem getLsbD_xor_bitMask : (x ^^^ bitMask b).getLsbD j = if j = b then !x.getLsbD j else x.getLsbD j := by
  rw [BitVec.getLsbD_xor, getLsbD_bitMask b j hj]
  by_cases hjb : j = b <;> simp [hjb]

end

/-- Settles O40: the mask has the one bit b, so the function of each changes that bit alone. -/
theorem bitResults : Obligations.BitResults :=
  ⟨BitInstr.bcf.bitResult getLsbD_and_not_bitMask, BitInstr.bsf.bitResult getLsbD_or_bitMask,
    BitInstr.btgf.bitResult getLsbD_xor_bitMask⟩

end Sys2Proof.Proofs
end

section
/-! What ends a run and what does not (60_exceptions.md): the marks (rules R240, R241 and R262), the state a stop leaves, the
final state (rule R267) and the interrupt at a boundary (rules R251 and R252). -/

namespace Sys2Proof.Proofs

open Sys2Proof.Machine Sys2Proof.Statement

/-! ### The marks -/

theorem refuse_of_refused {α : Type} {s : State} {r : RefusalReason} (h : s.refused = some r) :
    refuse (α := α) s r = .refused (.raised r s) := by
  rw [refuse, ← h]

theorem raise_of_fault {α : Type} {s : State} {r : FaultReason} (h : s.fault = some r) :
    raise (α := α) s r = .fault (.raised r s) := by
  rw [raise, ← h]

theorem step_of_refused {s : State} {r : RefusalReason} (h : s.refused = some r) : step s = .refused (.raised r s) := by
  simp only [step, stopOf, h, refuse_of_refused]

theorem step_of_fault {s : State} {r : FaultReason} (hr : s.refused = none) (hf : s.fault = some r) :
    step s = .fault (.raised r s) := by
  simp only [step, stopOf, hr, hf, raise_of_fault]

theorem step_of_wdtEnabled {s : State} (hr : s.refused = none) (hf : s.fault = none) (hw : s.cfg.wdtEnabled = true) :
    step s = refuses s .watchdogEnabled := by
  simp only [step, stopOf, hr, hf, hw, if_true]
  rfl

/-- Settles O15: each of the three is looked at before the boundary, in this order. -/
theorem marksEndTheRun : Obligations.MarksEndTheRun :=
  ⟨fun _ _ => step_of_refused, fun _ _ => step_of_fault, fun _ => step_of_wdtEnabled⟩

/-! ### The state a stop leaves -/

/-- What a faulting step leaves: no refused mark, and the state it started in but for the fault, the draw and, for a stack
underflow alone, STKUN and SKERR (rules R240 and R243). -/
theorem step_eq_fault {s t : State} {r : FaultReason} (h : step s = .fault (.raised r t)) :
    s.refused = none ∧ ∃ inputs stkun skerr,
      t = { s with fault := some r, inputs := inputs, stkun := stkun, skerr := skerr } ∧
      ((∃ p, r = .stackUnderflowReset p) ∨ (stkun = s.stkun ∧ skerr = s.skerr)) := by
  rcases step_cases s with ⟨q, -, hq⟩ | ⟨q, hnone, -, hq⟩ | ⟨-, -, -, hq⟩ | ⟨⟨hnone, -, -⟩, hq⟩ <;> rw [hq] at h
  · cases h
  · obtain ⟨rfl, rfl⟩ := raise_eq_fault.mp h
    exact ⟨hnone, s.inputs, _, _, rfl, .inr ⟨rfl, rfl⟩⟩
  · cases h
  · rcases boundaryStep_eq_fault h with rfl | ⟨p, hr, rfl⟩
    · exact ⟨hnone, _, _, _, rfl, .inr ⟨rfl, rfl⟩⟩
    · exact ⟨hnone, _, _, _, rfl, .inl ⟨p, hr⟩⟩

/-- What a refused step leaves: the state it started in but for the mark and the draw (rule R241). -/
theorem step_eq_refused {s t : State} {r : RefusalReason} (h : step s = .refused (.raised r t)) :
    ∃ inputs, t = { s with refused := some r, inputs := inputs } := by
  rcases step_cases s with ⟨q, -, hq⟩ | ⟨q, -, -, hq⟩ | ⟨-, -, -, hq⟩ | ⟨-, hq⟩ <;> rw [hq] at h
  · obtain ⟨rfl, rfl⟩ := refuse_eq_refused.mp h
    exact ⟨s.inputs, rfl⟩
  · cases h
  · obtain ⟨rfl, rfl⟩ := refuse_eq_refused.mp h
    exact ⟨s.inputs, rfl⟩
  · exact ⟨_, boundaryStep_eq_refused h⟩

theorem final_iff {s : State} :
    s.final = true ↔ s.run ≠ .running ∧ s.fault = none ∧ s.refused = none ∧ s.cfg.wakeModelled = false := by
  simp [State.final, and_assoc]

theorem final_of_fault {s : State} {r : FaultReason} (h : s.fault = some r) : s.final = false := by
  simp [State.final, h]

theorem final_of_refused {s : State} {r : RefusalReason} (h : s.refused = some r) : s.final = false := by
  simp [State.final, h]

/-- Settles O16: the state a stop leaves carries its mark, and a marked state answers its own mark. -/
theorem stopsAreRecorded : Obligations.StopsAreRecorded := by
  refine fun s => ⟨fun r t h => ?_, fun r t h => ?_⟩
  · obtain ⟨hnone, inputs, stkun, skerr, rfl, hflags⟩ := step_eq_fault h
    exact ⟨rfl, final_of_fault rfl, step_of_fault hnone rfl, rfl, hflags⟩
  · obtain ⟨inputs, rfl⟩ := step_eq_refused h
    exact ⟨rfl, final_of_refused rfl, step_of_refused rfl, rfl⟩

/-! ### The final state -/

theorem step_of_final {s : State} (hfinal : s.final = true) (hwdt : s.cfg.wdtEnabled = false) : step s = .next s := by
  obtain ⟨hrun, hfault, hrefused, hwake⟩ := final_iff.mp hfinal
  obtain ⟨hself, -⟩ := haltedStepOnlyWakes s ⟨hrefused, hfault, hwdt⟩ hrun
  exact hself hwake

/-- Settles O14, by induction on the number of steps, each of which answers the state itself. -/
theorem finalStateStays : Obligations.FinalStateStays := by
  intro n s hfinal hwdt
  induction n with
  | zero => rfl
  | succ n ih =>
    rw [run_succ, step_of_final hfinal hwdt]
    exact ih

/-! ### The interrupt at a boundary -/

theorem interruptEntry_of_full {s : State} (h : s.cfg.stackDepth ≤ s.sp) :
    interruptEntry s = faults s (.stackOverflow s.pc) := by
  rw [interruptEntry, push, if_neg (Nat.not_lt.mpr h), andThen_raise]
  rfl

/-- Settles O10: the step is interrupt entry, which pushes where there is room. -/
theorem interruptEntryPushesPcAndClearsGie : Obligations.InterruptEntryPushesPcAndClearsGie := by
  intro s hs hrun hreq
  rw [step_of_requested hs hrun hreq]
  exact ⟨fun room => interruptEntry_eq_next.mpr ⟨room, rfl⟩, interruptEntry_of_full (s := s.consume)⟩

theorem not_requested_of_gie {s : State} (h : s.gie = false) : ¬ Requested s := by
  rintro ⟨-, hgie, -⟩
  exact absurd (h.symm.trans hgie) Bool.false_ne_true

/-- Settles O11: with GIE = 0 both steps fetch and execute in the state that is left once the draw is taken. -/
theorem noInterruptWithGieClear : Obligations.NoInterruptWithGieClear := by
  intro s x y ds hs hgie hrun
  have hstep (d : Input) : step { s with inputs := d :: ds } = fetchExec { s with inputs := ds } :=
    step_of_not_requested hs hrun (not_requested_of_gie hgie)
  rw [hstep, hstep]

end Sys2Proof.Proofs
end
